-- ==== Sys2Proof/Word.lean ====
section
/-! DEFINITION. The byte, the one width every access of the block has (spec/20_memory.md R44, R47). -/

namespace Sys2Proof

/-- Eight bits, bit 0 the least significant (spec/00_scope.md R9). -/
abbrev Byte := BitVec 8

end Sys2Proof
end

