-- ==== Sys2Proof/Config.lean ====
section
/-! DEFINITION. The parameters the source leaves open (spec/00_scope.md R7, R8), as one record of plain data that a
state carries and no step changes, so that a statement about every state is a statement about every choice of them;
and the free values (log 5, log 17). The default NUMBERS stand in Decode.lean. -/

namespace Sys2Proof

/-- The thirteen status codes the source names (spec/30_encoding.md R66). -/
inductive Status where
  | buserr | start | rstart | slawAck | slawNack | txdAck | txdNack
  | arbLost | slarAck | slarNack | rxdAck | rxdNack | noinfo
  deriving DecidableEq, Repr

/-- Every named status, in the order of spec/30_encoding.md R66's table. -/
def Status.all : List Status :=
  [.buserr, .start, .rstart, .slawAck, .slawNack, .txdAck, .txdNack,
   .arbLost, .slarAck, .slarNack, .rxdAck, .rxdNack, .noinfo]

/-- `STATUS_ENC`: the numeric value of each named status (spec/00_scope.md R7). -/
structure StatusEnc where
  buserr : Byte
  start : Byte
  rstart : Byte
  slawAck : Byte
  slawNack : Byte
  txdAck : Byte
  txdNack : Byte
  arbLost : Byte
  slarAck : Byte
  slarNack : Byte
  rxdAck : Byte
  rxdNack : Byte
  noinfo : Byte
  deriving DecidableEq, Repr

/-- The value `STATUS_ENC` gives a status. -/
def StatusEnc.code (e : StatusEnc) : Status → Byte
  | .buserr => e.buserr
  | .start => e.start
  | .rstart => e.rstart
  | .slawAck => e.slawAck
  | .slawNack => e.slawNack
  | .txdAck => e.txdAck
  | .txdNack => e.txdNack
  | .arbLost => e.arbLost
  | .slarAck => e.slarAck
  | .slarNack => e.slarNack
  | .rxdAck => e.rxdAck
  | .rxdNack => e.rxdNack
  | .noinfo => e.noinfo

/-- `CR_LAYOUT`: the bit position of each control-register field (spec/00_scope.md R7, spec/30_encoding.md R70). -/
structure CrLayout where
  ien : Fin 8
  pen : Fin 8
  start : Fin 8
  stop : Fin 8
  acken : Fin 8
  evack : Fin 8
  deriving DecidableEq, Repr

/-- The six positions, in the order of the control word's record (spec/30_encoding.md R69). -/
def CrLayout.positions (l : CrLayout) : List (Fin 8) :=
  [l.ien, l.pen, l.start, l.stop, l.acken, l.evack]

/-- The parameters of spec/00_scope.md R7. `brInit`'s width is not given (spec/10_state.md R32, log 11). -/
structure Config where
  txMaxLen : Nat
  rxMaxLen : Nat
  statusMask : Byte
  statusEnc : StatusEnc
  crLayout : CrLayout
  brInit : Nat
  deriving DecidableEq, Repr

/-- The ranges spec/00_scope.md R7 and spec/92_eei_decisions.md D5, D6, D7 give the parameters. -/
abbrev Config.Wf (c : Config) : Prop :=
  (1 ≤ c.txMaxLen ∧ c.txMaxLen ≤ 255) ∧ (1 ≤ c.rxMaxLen ∧ c.rxMaxLen ≤ 255) ∧
  c.statusMask ≠ 0xFF#8 ∧
  (∀ a ∈ Status.all, c.statusEnc.code a &&& c.statusMask = c.statusEnc.code a ∧ c.statusEnc.code a ≠ 0xFF#8) ∧
  (∀ a ∈ Status.all, ∀ b ∈ Status.all, c.statusEnc.code a = c.statusEnc.code b → a = b) ∧
  c.crLayout.positions.Nodup

/-- FREE VALUE: the byte a peripheral register holds after a RESET transaction, where spec/10_state.md R36 says
"unspecified" (log 5). No body: nothing can be proved of it. -/
opaque Config.freeByte : Nat → Byte

/-- FREE VALUE: what the clock-divisor pair holds after a RESET transaction (spec/10_state.md R36, log 5). -/
opaque Config.freeDivisor : Nat → Nat

end Sys2Proof
end

