-- ==== Sys2Proof/Syntax.lean ====
section
/-! DEFINITION. What crosses the block's boundary: the control word, the transactions presented to the block in their
encoded form (spec/30_encoding.md R57), and the instructions they decode to, one constructor per row of
spec/opcode_table.json. -/

namespace Sys2Proof

/-- A control word: the six 1-bit fields of CR (spec/10_state.md R29, spec/30_encoding.md R69). The record is
normative; its packing into a byte is the parameter `CR_LAYOUT`. -/
structure ControlWord where
  ien : Bool
  pen : Bool
  start : Bool
  stop : Bool
  acken : Bool
  evack : Bool
  deriving DecidableEq, Repr

/-- One transaction as it is encoded at the block's boundary (spec/30_encoding.md R57, R58, R64, R68). -/
inductive Packet where
  /-- a frame on the command port -/
  | cmd (frame : List Byte)
  /-- an event: the values SR and DR have when the handler reads them -/
  | evt (sr dr : Byte)
  /-- a primitive: the byte staged in DR, if any, and the byte written to CR. It is issued from inside a transaction only
  (spec/40_primitives.md R78): the step refuses one presented between transactions -/
  | prim (stage : Option Byte) (cr : Byte)
  /-- the reset input -/
  | reset
  deriving DecidableEq, Repr

/-- Why a packet is no instruction (spec/30_encoding.md R73; `badPrimitive`: spec/93_implementation_defined.md U3). -/
inductive Reject where
  /-- a command frame with no byte at all -/
  | emptyFrame
  /-- a frame shorter than its opcode requires -/
  | shortFrame (op : Byte)
  /-- a frame longer than its opcode requires -/
  | longFrame (op : Byte)
  /-- `flags[7:1]` is not 0 -/
  | reservedFlags (flags : Byte)
  /-- `addr[7]` is 1 in READ -/
  | reservedAddress (addr : Byte)
  /-- a control word the block never writes -/
  | badPrimitive (cr : Byte)
  deriving DecidableEq, Repr

/-- The operations of spec/opcode_table.json, one constructor per row. An event carries the status-register value it
was delivered with, whose masked part selects the constructor; a receive event carries the received byte too. -/
inductive Instr where
  -- host commands (spec/41_host_commands.md)
  | init
  | isready
  | transmit (rs : Bool) (data : List Byte)
  | read (rs : Bool) (addr : BitVec 7) (n : Byte)
  | geterr
  | getrxlen
  | getrxbyte (i : Byte)
  | cmdReserved (op : Byte) (operands : List Byte)
  -- status events (spec/42_event_fsm.md)
  | evtBuserr (sr : Byte)
  | evtStart (sr : Byte)
  | evtRstart (sr : Byte)
  | evtSlawAck (sr : Byte)
  | evtSlawNack (sr : Byte)
  | evtTxdAck (sr : Byte)
  | evtTxdNack (sr : Byte)
  | evtArbLost (sr : Byte)
  | evtSlarAck (sr : Byte)
  | evtSlarNack (sr : Byte)
  | evtRxdAck (sr dr : Byte)
  | evtRxdNack (sr dr : Byte)
  | evtNoinfo (sr : Byte)
  | evtUnlisted (sr : Byte)
  -- primitives and INIT's control word (spec/40_primitives.md, spec/30_encoding.md R71)
  | sendStart
  | sendStop
  | sendTransmit (b : Byte)
  | sendAck
  | sendNack
  | initCw
  -- the reset input (spec/70_reset_and_hazards.md R153)
  | reset
  deriving DecidableEq, Repr

end Sys2Proof
end

