-- ==== Sys2Proof/WellFormed.lean ====
section
/-! DEFINITION. Which instructions have an encoding: the field ranges of spec/30_encoding.md R58, R59, R61 and the
status an event was delivered with (R65, R66, R67), under a configuration. -/

namespace Sys2Proof

/-- `sr` carries the named status `st` (spec/30_encoding.md R65). -/
abbrev carries (c : Config) (st : Status) (sr : Byte) : Prop :=
  sr &&& c.statusMask = c.statusEnc.code st

/-- The fields of an instruction are in range. -/
def Instr.wf (c : Config) : Instr → Bool
  | .transmit _ data => decide (data.length ≤ 255)
  | .cmdReserved op _ => decide (7 ≤ op.toNat)
  | .evtBuserr sr => decide (carries c .buserr sr)
  | .evtStart sr => decide (carries c .start sr)
  | .evtRstart sr => decide (carries c .rstart sr)
  | .evtSlawAck sr => decide (carries c .slawAck sr)
  | .evtSlawNack sr => decide (carries c .slawNack sr)
  | .evtTxdAck sr => decide (carries c .txdAck sr)
  | .evtTxdNack sr => decide (carries c .txdNack sr)
  | .evtArbLost sr => decide (carries c .arbLost sr)
  | .evtSlarAck sr => decide (carries c .slarAck sr)
  | .evtSlarNack sr => decide (carries c .slarNack sr)
  | .evtRxdAck sr _ => decide (carries c .rxdAck sr)
  | .evtRxdNack sr _ => decide (carries c .rxdNack sr)
  | .evtNoinfo sr => decide (carries c .noinfo sr)
  | .evtUnlisted sr => decide (∀ st ∈ Status.all, ¬ carries c st sr)
  | .init => true
  | .isready => true
  | .read _ _ _ => true
  | .geterr => true
  | .getrxlen => true
  | .getrxbyte _ => true
  | .sendStart => true
  | .sendStop => true
  | .sendTransmit _ => true
  | .sendAck => true
  | .sendNack => true
  | .initCw => true
  | .reset => true

end Sys2Proof
end

