-- ==== Sys2Proof/Decode.lean ====
section
/-! DEFINITION. The numbers of the spec (defaults of the parameters, the six control words, opcodes), the decoder from
packets to instructions, total and refusing by name (spec/30_encoding.md R73, R77), the encoder beside it, and the
host's view of one opcode-table word. -/

namespace Sys2Proof

/-! ### Default parameters -/

/-- Default `STATUS_ENC` (spec/30_encoding.md R66; general knowledge of the AVR two-wire interface, log 3). -/
def StatusEnc.default : StatusEnc where
  buserr := 0x00#8
  start := 0x08#8
  rstart := 0x10#8
  slawAck := 0x18#8
  slawNack := 0x20#8
  txdAck := 0x28#8
  txdNack := 0x30#8
  arbLost := 0x38#8
  slarAck := 0x40#8
  slarNack := 0x48#8
  rxdAck := 0x50#8
  rxdNack := 0x58#8
  noinfo := 0xF8#8

/-- Default `CR_LAYOUT` (spec/30_encoding.md R70; general knowledge of the AVR two-wire interface, log 3). -/
def CrLayout.default : CrLayout where
  ien := 0
  pen := 2
  start := 5
  stop := 4
  acken := 6
  evack := 7

/-- The defaults of spec/00_scope.md R7; the two capacities are the test vectors' own choice and `BR_INIT`, which the
spec leaves symbolic, is 0 (log 3). -/
def Config.default : Config where
  txMaxLen := 20
  rxMaxLen := 20
  statusMask := 0xF8#8
  statusEnc := StatusEnc.default
  crLayout := CrLayout.default
  brInit := 0

/-! ### Status extraction -/

/-- `s = sr & STATUS_MASK` (spec/30_encoding.md R65). -/
def statusValue (c : Config) (sr : Byte) : Byte := sr &&& c.statusMask

/-- The named status with a masked value, `none` for an unlisted one (spec/30_encoding.md R67). -/
def classify (c : Config) (s : Byte) : Option Status :=
  Status.all.find? (fun st => c.statusEnc.code st == s)

/-! ### Control words (spec/30_encoding.md R71) -/

/-- SEND_START's `cw(evack, start, pen, ien)`. -/
def cwStart : ControlWord := ⟨true, true, true, false, false, true⟩
/-- SEND_STOP's `cw(evack, stop, pen, ien)`. -/
def cwStop : ControlWord := ⟨true, true, false, true, false, true⟩
/-- SEND_TRANSMIT's `cw(evack, pen, ien)`. -/
def cwXmit : ControlWord := ⟨true, true, false, false, false, true⟩
/-- SEND_ACK's `cw(evack, acken, pen, ien)`. -/
def cwAck : ControlWord := ⟨true, true, false, false, true, true⟩
/-- SEND_NACK's `cw(evack, pen, ien)`, the same record as SEND_TRANSMIT's (spec/30_encoding.md R72). -/
def cwNack : ControlWord := ⟨true, true, false, false, false, true⟩
/-- INIT's `cw(pen, ien)`. -/
def cwEnable : ControlWord := ⟨true, true, false, false, false, false⟩
/-- All six fields 0: CR after reset (spec/10_state.md R36). -/
def cwOff : ControlWord := ⟨false, false, false, false, false, false⟩

/-- One field of a control word at its bit position. -/
def fieldBit (p : Fin 8) (b : Bool) : Byte := if b then BitVec.twoPow 8 p.val else 0#8

/-- A control word as the byte written to CR; bits outside the six fields are 0 (spec/10_state.md R29). -/
def packControl (l : CrLayout) (w : ControlWord) : Byte :=
  fieldBit l.ien w.ien ||| fieldBit l.pen w.pen ||| fieldBit l.start w.start |||
  fieldBit l.stop w.stop ||| fieldBit l.acken w.acken ||| fieldBit l.evack w.evack

/-! ### Decoding -/

/-- What a packet decodes to. -/
inductive Decoded where
  | instr (i : Instr)
  | reject (r : Reject)
  deriving DecidableEq, Repr

/-- A frame that must hold its opcode byte alone. -/
def decodeBare (op : Byte) (i : Instr) : List Byte → Decoded
  | [] => .instr i
  | _ :: _ => .reject (.longFrame op)

/-- `flags[7:1]` must be 0 (spec/30_encoding.md R59). -/
def flagsLegal (flags : Byte) : Bool := flags.extractLsb' 1 7 == 0#7

/-- `02 flags len data[0] ... data[len-1]` (spec/30_encoding.md R58, R59, R61), after its opcode byte. -/
def decodeTransmit : List Byte → Decoded
  | flags :: len :: data =>
    if !flagsLegal flags then .reject (.reservedFlags flags)
    else if data.length < len.toNat then .reject (.shortFrame 0x02#8)
    else if len.toNat < data.length then .reject (.longFrame 0x02#8)
    else .instr (.transmit (flags.getLsbD 0) data)
  | _ => .reject (.shortFrame 0x02#8)

/-- `03 flags addr n` (spec/30_encoding.md R58, R59), after its opcode byte. -/
def decodeRead : List Byte → Decoded
  | [flags, addr, n] =>
    if !flagsLegal flags then .reject (.reservedFlags flags)
    else if addr.getLsbD 7 then .reject (.reservedAddress addr)
    else .instr (.read (flags.getLsbD 0) (addr.extractLsb' 0 7) n)
  | _ :: _ :: _ :: _ :: _ => .reject (.longFrame 0x03#8)
  | _ => .reject (.shortFrame 0x03#8)

/-- `06 i` (spec/30_encoding.md R58), after its opcode byte; the range of `i` is the meaning's to check, since it
depends on `RXMAXLEN` (spec/41_host_commands.md R93). -/
def decodeGetrxbyte : List Byte → Decoded
  | [i] => .instr (.getrxbyte i)
  | [] => .reject (.shortFrame 0x06#8)
  | _ :: _ :: _ => .reject (.longFrame 0x06#8)

/-- A frame on the command port (spec/30_encoding.md R58). -/
def decodeFrame : List Byte → Decoded
  | [] => .reject .emptyFrame
  | op :: rest =>
    match op.toNat with
    | 0 => decodeBare op .init rest
    | 1 => decodeBare op .isready rest
    | 2 => decodeTransmit rest
    | 3 => decodeRead rest
    | 4 => decodeBare op .geterr rest
    | 5 => decodeBare op .getrxlen rest
    | 6 => decodeGetrxbyte rest
    | _ => .instr (.cmdReserved op rest)

/-- The event rule a status selects (spec/42_event_fsm.md R95); the status alone decides (R96). -/
def eventInstr (st : Option Status) (sr dr : Byte) : Instr :=
  match st with
  | some .buserr => .evtBuserr sr
  | some .start => .evtStart sr
  | some .rstart => .evtRstart sr
  | some .slawAck => .evtSlawAck sr
  | some .slawNack => .evtSlawNack sr
  | some .txdAck => .evtTxdAck sr
  | some .txdNack => .evtTxdNack sr
  | some .arbLost => .evtArbLost sr
  | some .slarAck => .evtSlarAck sr
  | some .slarNack => .evtSlarNack sr
  | some .rxdAck => .evtRxdAck sr dr
  | some .rxdNack => .evtRxdNack sr dr
  | some .noinfo => .evtNoinfo sr
  | none => .evtUnlisted sr

/-- A primitive from its writes: SEND_TRANSMIT and SEND_NACK write the same control word and are told apart by the
DR write before it (spec/30_encoding.md R72). -/
def decodePrimitive (l : CrLayout) (stage : Option Byte) (cr : Byte) : Decoded :=
  match stage with
  | some b => if cr = packControl l cwXmit then .instr (.sendTransmit b) else .reject (.badPrimitive cr)
  | none =>
    if cr = packControl l cwStart then .instr .sendStart
    else if cr = packControl l cwStop then .instr .sendStop
    else if cr = packControl l cwAck then .instr .sendAck
    else if cr = packControl l cwNack then .instr .sendNack
    else if cr = packControl l cwEnable then .instr .initCw
    else .reject (.badPrimitive cr)

/-- The decoder, total on every packet (spec/30_encoding.md R77). -/
def decode (c : Config) : Packet → Decoded
  | .cmd frame => decodeFrame frame
  | .evt sr dr => .instr (eventInstr (classify c (statusValue c sr)) sr dr)
  | .prim stage cr => decodePrimitive c.crLayout stage cr
  | .reset => .instr .reset

/-! ### Encoding, from the same tables -/

/-- The `flags` byte: bit 0 = `rs`, bits 7:1 = 0 (spec/30_encoding.md R59). -/
def flagsByte (rs : Bool) : Byte := if rs then 0x01#8 else 0x00#8

/-- The packet of an instruction. An event that does not read DR is encoded with `dr = 0` (spec/30_encoding.md R64:
"`dr` is ignored and may be absent"). -/
def encode (c : Config) : Instr → Packet
  | .init => .cmd [0x00#8]
  | .isready => .cmd [0x01#8]
  | .transmit rs data => .cmd (0x02#8 :: flagsByte rs :: BitVec.ofNat 8 data.length :: data)
  | .read rs addr n => .cmd [0x03#8, flagsByte rs, addr.setWidth 8, n]
  | .geterr => .cmd [0x04#8]
  | .getrxlen => .cmd [0x05#8]
  | .getrxbyte i => .cmd [0x06#8, i]
  | .cmdReserved op operands => .cmd (op :: operands)
  | .evtBuserr sr => .evt sr 0#8
  | .evtStart sr => .evt sr 0#8
  | .evtRstart sr => .evt sr 0#8
  | .evtSlawAck sr => .evt sr 0#8
  | .evtSlawNack sr => .evt sr 0#8
  | .evtTxdAck sr => .evt sr 0#8
  | .evtTxdNack sr => .evt sr 0#8
  | .evtArbLost sr => .evt sr 0#8
  | .evtSlarAck sr => .evt sr 0#8
  | .evtSlarNack sr => .evt sr 0#8
  | .evtRxdAck sr dr => .evt sr dr
  | .evtRxdNack sr dr => .evt sr dr
  | .evtNoinfo sr => .evt sr 0#8
  | .evtUnlisted sr => .evt sr 0#8
  | .sendStart => .prim none (packControl c.crLayout cwStart)
  | .sendStop => .prim none (packControl c.crLayout cwStop)
  | .sendTransmit b => .prim (some b) (packControl c.crLayout cwXmit)
  | .sendAck => .prim none (packControl c.crLayout cwAck)
  | .sendNack => .prim none (packControl c.crLayout cwNack)
  | .initCw => .prim none (packControl c.crLayout cwEnable)
  | .reset => .reset

/-! ### One word of the opcode table

The table numbers the bytes of an instruction from bit 0 of `w` upwards and does not say at which of the block's three
interfaces a byte arrives; the first byte chooses it here (log 19). -/

/-- Byte `k` of the word, the bits from `nbits` on being 0. -/
def tableByte (nbits w k : Nat) : Byte := BitVec.ofNat 8 (w % 2 ^ nbits / 2 ^ (8 * k))

/-- How many bytes the frame of an opcode has, its third byte being `len` (spec/30_encoding.md R58, R61). -/
def frameLength (op len : Byte) : Nat :=
  match op.toNat with
  | 2 => 3 + len.toNat
  | 3 => 4
  | 6 => 2
  | _ => 1

/-- The packet of a table word: a frame when the first byte is one of the seven opcodes, a primitive when it is one of
the four control words of spec/30_encoding.md R71 that is no opcode, and an event otherwise.

DESIGN CHOICE (log 23): spec/30_encoding.md R73 refuses a frame shorter or longer than its opcode requires, but no rule
says how a word becomes a frame. A word SHORTER than its opcode's frame is padded with bytes 0x00 to that frame (so the
8-bit word 0x02 is the frame 02 00 00, a TRANSMIT of no data); one LONGER is a frame of all its bytes, which the decoder
refuses; an event or a primitive takes the two bytes it has room for, 0x00 for a second one that is missing (an event),
and no byte beyond them. -/
def tablePacket (c : Config) (nbits w : Nat) : Packet :=
  let b0 := tableByte nbits w 0
  if b0.toNat < 7 then
    .cmd ((List.range (max (frameLength b0 (tableByte nbits w 2)) (nbits / 8))).map (tableByte nbits w))
  else if b0 = packControl c.crLayout cwXmit then
    .prim (if 8 < nbits then some (tableByte nbits w 1) else none) b0
  else if b0 = packControl c.crLayout cwStart ∨ b0 = packControl c.crLayout cwStop ∨ b0 = packControl c.crLayout cwAck then
    .prim none b0
  else .evt b0 (tableByte nbits w 1)

/-- The instruction the decoder reads from a table word, under the default parameters. -/
def decodeTableWord (nbits w : Nat) : Option Instr :=
  match decode Config.default (tablePacket Config.default nbits w) with
  | .instr i => some i
  | .reject _ => none

end Sys2Proof
end

