-- ==== Sys2Proof/Machine/State.lean ====
section
/-! DEFINITION. The state as plain data (spec/10_state.md), the state after reset (R36), and the reasons a step can
stop. -/

namespace Sys2Proof.Machine

/-- The five modes (spec/10_state.md R14, R15). -/
inductive Mode where
  | ready
  | initializing
  | masterTransmitter
  | masterReceiver
  | repeatedStartSent
  deriving DecidableEq, Repr

/-- The bytes of one buffer by index: rising indexes, and no entry for a byte 0x00, which is what an unlisted index
reads as (spec/10_state.md R36, log 6). -/
abbrev Memory := List Host.Cell

/-- The canonical form of a buffer's contents. -/
abbrev Memory.wf (m : Memory) : Prop :=
  m.Pairwise (fun x y => x.1 < y.1) ∧ ∀ x ∈ m, x.2 ≠ 0#8

/-- The two execution contexts (spec/60_exceptions.md R147): the host's, entered by a command, and the handler's, entered
by an event. -/
inductive Context where
  | host
  | handler
  deriving DecidableEq, Repr

/-- One `PeriphWrite` call of the output trace (spec/00_scope.md R10). -/
inductive PeriphWrite where
  | cr (w : ControlWord)
  | dr (b : Byte)
  | br (v : Nat)
  deriving DecidableEq, Repr

/-- Everything the spec gives the machine, its boundary and its parameters (INVENTORY.md, "State"). -/
structure State where
  /-- the parameters of spec/00_scope.md R7; no step changes them -/
  cfg : Config
  /-- `MODE` (spec/10_state.md R14) -/
  mode : Mode
  /-- `ERR` (R17) -/
  err : Byte
  /-- `RS` (R18) -/
  rs : Bool
  /-- `TXBUF` (R20) -/
  txbuf : Memory
  /-- `TXLEN` (R21) -/
  txlen : Byte
  /-- `TXIDX` (R22) -/
  txidx : Byte
  /-- `RXBUF` (R24) -/
  rxbuf : Memory
  /-- `RXLEN` (R25) -/
  rxlen : Byte
  /-- `RXIDX` (R26) -/
  rxidx : Byte
  /-- `CR` of the peripheral (R29) -/
  cr : ControlWord
  /-- `DR` of the peripheral (R30) -/
  dr : Byte
  /-- `SR` of the peripheral (R31) -/
  sr : Byte
  /-- `BR` of the peripheral (R32) -/
  br : Nat
  /-- `EVF` of the peripheral (R33) -/
  evf : Bool
  /-- the context whose transaction is under way (spec/60_exceptions.md R147), `none` between transactions -/
  context : Option Context
  /-- a transaction of this run has been taken (spec/70_reset_and_hazards.md R155, log 25) -/
  started : Bool
  /-- INIT has run since reset (spec/70_reset_and_hazards.md R157, log 26) -/
  initialised : Bool
  /-- the output trace, oldest write first (spec/20_memory.md R49, R51) -/
  trace : List PeriphWrite
  /-- the result bytes of the commands, oldest first (spec/10_state.md R37) -/
  results : List Byte
  /-- the transactions presented and not yet taken, oldest first (log 1) -/
  inputs : List Packet
  /-- the MODEL's own: how many free values have been used (log 17) -/
  draws : Nat
  deriving DecidableEq, Repr

/-- The model faults: the machine stops. -/
inductive Fault where
  /-- RxOverrun (spec/60_exceptions.md R138): raised by the store of a received byte at `idx >= RXMAXLEN`, from
  S_RXD_ACK and S_RXD_NACK. SAFE: the spec's own fault, where the source defines nothing. -/
  | rxOverrun (idx : Nat)
  /-- A read of `TXBUF[idx]` with `idx >= TXMAXLEN`, raised by staging a byte (S_START, S_SLAW_ACK, S_TXD_ACK,
  TRANSMIT and READ from RepeatedStartSent). SAFE: spec/20_memory.md R46 says no access can be out of range; it is
  reached only from states no run reaches (log 12). -/
  | txOutOfRange (idx : Nat)
  deriving DecidableEq, Repr

/-- The refusals: the model gives the transaction no meaning. -/
inductive Refusal where
  /-- An instruction the model has no meaning for; raised by an arm of `exec`. SAFE. No arm raises it. -/
  | notModelled (mnemonic : String)
  /-- An opcode 0x07 to 0xFF (spec/30_encoding.md R73), raised by CMD_RESERVED. SAFE: the spec refuses the frame. -/
  | reservedCommand (op : Byte)
  /-- GETRXBYTE with `i >= RXMAXLEN` (spec/41_host_commands.md R93, spec/30_encoding.md R73), raised by GETRXBYTE.
  SAFE: the spec refuses the frame. -/
  | rxIndexOutOfRange (i : Byte)
  /-- A packet that is no instruction (spec/30_encoding.md R73), raised by the step's decoding. SAFE: the spec refuses
  the frame. -/
  | undecodable (r : Reject)
  /-- A primitive, or INIT's control word, presented between transactions: spec/40_primitives.md R78 issues one only from
  inside a command or an event, never on its own. Raised by the step. SAFE: the spec gives no such transaction. -/
  | primitiveAlone
  /-- A command, an event or a reset presented inside a transaction, which runs to its end before another begins
  (spec/20_memory.md R45) and does not nest (spec/60_exceptions.md R145). Raised by the step. SAFE: the spec gives no
  such run. -/
  | insideTransaction
  /-- A reset presented after another transaction of the run: spec/70_reset_and_hazards.md R155 allows one only as the
  first (spec/93_implementation_defined.md U14, log 25). Raised by the step. SAFE: the spec has the model refuse it. -/
  | resetInRun
  /-- INIT presented in a mode other than `Ready` (spec/41_host_commands.md R86 (b), (c), spec/70_reset_and_hazards.md
  R169, spec/93_implementation_defined.md U7). Raised by the step. SAFE: the spec has the model refuse it. -/
  | initNotIdle
  /-- A command presented before INIT (spec/70_reset_and_hazards.md R157, spec/93_implementation_defined.md U8). Raised by
  the step. SAFE: the spec has the model refuse it. -/
  | beforeInit
  deriving DecidableEq, Repr

/-- What a meaning answers. -/
abbrev Outcome := Host.Outcome State Fault Refusal

/-- The state after reset under a choice of the parameters: spec/10_state.md R36; DR, SR and BR, which it leaves
unspecified, hold the family's values (log 4). -/
def State.resetWith (c : Config) : State where
  cfg := c
  mode := .ready
  err := 0xFF#8
  rs := false
  txbuf := []
  txlen := 0#8
  txidx := 0#8
  rxbuf := []
  rxlen := 0#8
  rxidx := 0#8
  cr := cwOff
  dr := 0xFF#8
  sr := c.statusEnc.noinfo
  br := 0
  evf := false
  context := none
  started := false
  initialised := false
  trace := []
  results := []
  inputs := []
  draws := 0

/-- The machine right after reset, with the default parameters (spec/10_state.md R36, log 3). -/
def State.reset : State := State.resetWith Config.default

end Sys2Proof.Machine
end

