-- ==== Sys2Proof/Machine/Flags.lean ====
section
/-! DEFINITION. The flag-like state of spec/10_state.md R35 and every comparison of spec/44_operation_classes.md R177:
the block has no arithmetic condition codes. -/

namespace Sys2Proof.Machine

/-- `ready`: `MODE = Ready or MODE = RepeatedStartSent` (spec/10_state.md R15). -/
def State.ready (s : State) : Bool := s.mode == .ready || s.mode == .repeatedStartSent

/-- `ERR != 0xFF`: the transfer just completed has failed (spec/10_state.md R35, spec/60_exceptions.md R137). -/
def State.failed (s : State) : Bool := s.err != 0xFF#8

/-- The interrupt source is enabled: the last CR write had `ien = 1` and `pen = 1` (spec/60_exceptions.md R140). -/
def State.enabled (s : State) : Bool := s.cr.ien && s.cr.pen

/-- `TXIDX < TXLEN`, unsigned (spec/44_operation_classes.md R177 (b)). -/
def State.txPending (s : State) : Bool := decide (s.txidx.toNat < s.txlen.toNat)

/-- `RXIDX < RXLEN - 1` on mathematical integers: false for every `RXIDX` when `RXLEN = 0`
(spec/44_operation_classes.md R177 (c), spec/42_event_fsm.md R99). -/
def State.rxMoreAfterNext (s : State) : Bool := decide ((s.rxidx.toNat : Int) < (s.rxlen.toNat : Int) - 1)

/-- `len > TXMAXLEN` (spec/44_operation_classes.md R177 (a)). -/
def State.txTooLong (s : State) (len : Nat) : Bool := decide (s.cfg.txMaxLen < len)

/-- `n > RXMAXLEN` (spec/44_operation_classes.md R177 (a)). -/
def State.rxTooLong (s : State) (n : Byte) : Bool := decide (s.cfg.rxMaxLen < n.toNat)

end Sys2Proof.Machine
end

