-- ==== Sys2Proof/Machine/Operands.lean ====
section
/-! DEFINITION. The operand forms: the one value assembled from operand bits (spec/30_encoding.md R62), the masked
status of the event being handled (R65), and the contents of a buffer by index (spec/44_operation_classes.md R181). -/

namespace Sys2Proof.Machine

/-- READ's address frame, `(address << 1) | 0x01`: `frame[7:1] = address[6:0]`, `frame[0] = 1`
(spec/30_encoding.md R62, R63). -/
def addressFrame (addr : BitVec 7) : Byte := addr ++ 1#1

/-- `s`, the masked value of SR: the status code of the event being handled (spec/42_event_fsm.md R95). -/
def State.statusCode (s : State) : Byte := statusValue s.cfg s.sr

/-- The byte at an index; an index with no entry reads as 0x00 (spec/10_state.md R36, log 6). -/
def Memory.read : Memory → Nat → Byte
  | [], _ => 0#8
  | (a, b) :: rest, k => if k = a then b else Memory.read rest k

/-- Writing a byte at an index, keeping the canonical form. -/
def Memory.write : Memory → Nat → Byte → Memory
  | [], k, v => if v = 0#8 then [] else [(k, v)]
  | (a, b) :: rest, k, v =>
    if k < a then (if v = 0#8 then (a, b) :: rest else (k, v) :: (a, b) :: rest)
    else if k = a then (if v = 0#8 then rest else (k, v) :: rest)
    else (a, b) :: Memory.write rest k v

/-- Writing bytes at ascending indexes from `k` (spec/41_host_commands.md R88). -/
def Memory.copyIn : Memory → Nat → List Byte → Memory
  | m, _, [] => m
  | m, k, b :: bs => Memory.copyIn (m.write k b) (k + 1) bs

end Sys2Proof.Machine
end

