-- ==== Sys2Proof/Machine/Ops.lean ====
section
/-! DEFINITION. The named operations: writes of the peripheral's registers, buffer access with its range test, the end
of a command, the rejections, entering and leaving the event handler, the two contexts, the launch premise, and taking the
next transaction. -/

namespace Sys2Proof.Machine

/-! ### The block's registers (spec/00_scope.md R10, `REG <- v`) -/

/-- `MODE <- m` (spec/10_state.md R14). -/
def State.setMode (s : State) (m : Mode) : State := { s with mode := m }

/-- `ERR <- e` (spec/10_state.md R17). -/
def State.setErr (s : State) (e : Byte) : State := { s with err := e }

/-- `RS <- r` (spec/10_state.md R18). -/
def State.setRs (s : State) (r : Bool) : State := { s with rs := r }

/-- `TXIDX <- v` (spec/10_state.md R22). -/
def State.setTxIdx (s : State) (v : Byte) : State := { s with txidx := v }

/-- `RXIDX <- i`, `RXLEN <- n` (spec/10_state.md R25, R26). -/
def State.setRx (s : State) (i n : Byte) : State := { s with rxidx := i, rxlen := n }

/-- INIT has run (spec/70_reset_and_hazards.md R157). -/
def State.setInitialised (s : State) : State := { s with initialised := true }

/-! ### Peripheral registers (spec/20_memory.md R42, R48) -/

/-- `PeriphWrite(CR, w)`: a write of the whole register; with `evack = 1` it clears EVF (spec/10_state.md R33). -/
def State.writeCr (s : State) (w : ControlWord) : State :=
  { s with cr := w, evf := s.evf && !w.evack, trace := s.trace ++ [.cr w] }

/-- `PeriphWrite(DR, b)` (spec/10_state.md R30). -/
def State.writeDr (s : State) (b : Byte) : State := { s with dr := b, trace := s.trace ++ [.dr b] }

/-- `PeriphWrite(BR, v)` (spec/10_state.md R32). -/
def State.writeBr (s : State) (v : Nat) : State := { s with br := v, trace := s.trace ++ [.br v] }

/-! ### The bus-control primitives as operations (spec/40_primitives.md) -/

/-- `issue SEND_START` (R79). -/
def State.issueStart (s : State) : State := s.writeCr cwStart

/-- `issue SEND_STOP` (R80). -/
def State.issueStop (s : State) : State := s.writeCr cwStop

/-- `issue SEND_TRANSMIT(b)`: DR, then CR (R81). -/
def State.issueTransmit (s : State) (b : Byte) : State := (s.writeDr b).writeCr cwXmit

/-- `issue SEND_ACK` (R82). -/
def State.issueAck (s : State) : State := s.writeCr cwAck

/-- `issue SEND_NACK` (R83). -/
def State.issueNack (s : State) : State := s.writeCr cwNack

/-- INIT's write of CR, which is no primitive: `evack = 0` (spec/30_encoding.md R71). -/
def State.writeEnable (s : State) : State := s.writeCr cwEnable

/-! ### Buffers (spec/44_operation_classes.md R181, R182) -/

/-- `TXBUF[i]`, `none` beyond the buffer (spec/20_memory.md R46). -/
def State.readTx (s : State) (i : Nat) : Option Byte :=
  if i < s.cfg.txMaxLen then some (s.txbuf.read i) else none

/-- `RXBUF[i]`, `none` beyond the buffer (spec/41_host_commands.md R93). -/
def State.readRx (s : State) (i : Nat) : Option Byte :=
  if i < s.cfg.rxMaxLen then some (s.rxbuf.read i) else none

/-- `RXBUF[RXIDX] <- PeriphRead(DR); RXIDX <- RXIDX + 1` (spec/44_operation_classes.md R181 (e)). -/
def State.putRx (s : State) : State :=
  { s with rxbuf := s.rxbuf.write s.rxidx.toNat s.dr, rxidx := s.rxidx + 1#8 }

/-- RXSTORE: the store, `none` when `RXIDX >= RXMAXLEN`
(spec/42_event_fsm.md R98). -/
def State.rxStore (s : State) : Option State :=
  if s.rxidx.toNat < s.cfg.rxMaxLen then some s.putRx else none

/-- The writes of an accepted TRANSMIT before it arms: `RS`, the copy, `TXIDX <- 0`, `TXLEN <- len`
(spec/41_host_commands.md R88). -/
def State.loadTx (s : State) (rs : Bool) (data : List Byte) : State :=
  { s with
    rs := rs
    txbuf := s.txbuf.copyIn 0 data
    txidx := 0#8
    txlen := BitVec.ofNat 8 data.length }

/-- Staging: `issue SEND_TRANSMIT(TXBUF[TXIDX]); TXIDX <- TXIDX + 1`, `none` beyond the buffer
(spec/44_operation_classes.md R181 (c), (d)). -/
def State.stageNext (s : State) : Option State :=
  match s.readTx s.txidx.toNat with
  | some b => some ((s.issueTransmit b).setTxIdx (s.txidx + 1#8))
  | none => none

/-! ### Ending a command, and the rejections: the block's synchronous exceptions (spec/60_exceptions.md R131) -/

/-- `return c` (spec/00_scope.md R10). -/
def State.answer (s : State) (c : Byte) : State := { s with results := s.results ++ [c] }

/-- The result byte of an accepted command (spec/30_encoding.md R60). -/
def codeOk : Byte := 0x00#8

/-- The call-time rejections (spec/60_exceptions.md R132, R133). -/
inductive Rejection where
  | tooLong
  | notReady
  deriving DecidableEq, Repr

/-- Their result bytes (spec/30_encoding.md R60). -/
def rejectionCode : Rejection → Byte
  | .tooLong => 0x01#8
  | .notReady => 0x02#8

/-- `raise X`: the command ends with its result byte and writes nothing (spec/60_exceptions.md R132, R133, R135). -/
def State.rejectCommand (s : State) (r : Rejection) : State := s.answer (rejectionCode r)

/-! ### The event handler: the block's interrupt (spec/60_exceptions.md R139 to R146) -/

/-- Handler entry: the peripheral has set EVF and latched the status in SR; nothing is saved, no mode is switched
(spec/60_exceptions.md R143, spec/43_peripheral_contract.md R119). -/
def State.enterHandler (s : State) (sr : Byte) : State := { s with sr := sr, evf := true }

/-- Handler entry for a received byte, which is latched in DR (spec/43_peripheral_contract.md R119). -/
def State.enterHandlerRx (s : State) (sr dr : Byte) : State := { s with sr := sr, dr := dr, evf := true }

/-- Handler return: nothing is restored (spec/60_exceptions.md R144). -/
def State.leaveHandler (s : State) : Outcome := .next s

/-! ### The two contexts (spec/60_exceptions.md R147, spec/20_memory.md R45) -/

/-- The context is set (R147): `some` is entering one, `none` is the time between transactions. -/
def State.enterContext (s : State) (c : Option Context) : State := { s with context := c }

/-- The context is left: "left when the transaction ends" (R147). -/
def State.leaveContext (s : State) : State := { s with context := none }

/-- The end of a transaction: the context is left where the machine goes on. -/
def endTransaction : Outcome → Outcome
  | .next s => .next s.leaveContext
  | .fault f => .fault f
  | .refused r => .refused r

/-- The context in which a packet runs: a command enters the host's, an event the handler's, a reset neither, and a
primitive runs in the context that issues it (spec/40_primitives.md R78). -/
def State.contextFor (s : State) : Packet → Option Context
  | .cmd _ => some .host
  | .evt _ _ => some .handler
  | .prim _ _ => s.context
  | .reset => none

/-- Why a packet cannot be taken now, if it cannot: a primitive is never issued on its own (spec/40_primitives.md R78),
and no other transaction begins inside one (spec/20_memory.md R45). -/
def State.bars (s : State) : Packet → Option Refusal
  | .prim _ _ => if s.context = none then some .primitiveAlone else none
  | .cmd _ => if s.context = none then none else some .insideTransaction
  | .evt _ _ => if s.context = none then none else some .insideTransaction
  | .reset => if s.context = none then none else some .insideTransaction

/-- Why the launch premise refuses an instruction, if it does: a reset is the first transaction of a run or none
(spec/70_reset_and_hazards.md R155), INIT is issued in `Ready` only (spec/41_host_commands.md R86 (b), (c),
spec/70_reset_and_hazards.md R169), and the first command is INIT (R157). A reserved opcode, an event and a primitive are
no business of the premise. -/
def State.launchBars (s : State) : Instr → Option Refusal
  | .init => if s.mode = .ready then none else some .initNotIdle
  | .reset => if s.started then some .resetInRun else none
  | .isready => if s.initialised then none else some .beforeInit
  | .transmit _ _ => if s.initialised then none else some .beforeInit
  | .read _ _ _ => if s.initialised then none else some .beforeInit
  | .geterr => if s.initialised then none else some .beforeInit
  | .getrxlen => if s.initialised then none else some .beforeInit
  | .getrxbyte _ => if s.initialised then none else some .beforeInit
  | .cmdReserved _ _ => none
  | .evtBuserr _ => none
  | .evtStart _ => none
  | .evtRstart _ => none
  | .evtSlawAck _ => none
  | .evtSlawNack _ => none
  | .evtTxdAck _ => none
  | .evtTxdNack _ => none
  | .evtArbLost _ => none
  | .evtSlarAck _ => none
  | .evtSlarNack _ => none
  | .evtRxdAck _ _ => none
  | .evtRxdNack _ _ => none
  | .evtNoinfo _ => none
  | .evtUnlisted _ => none
  | .sendStart => none
  | .sendStop => none
  | .sendTransmit _ => none
  | .sendAck => none
  | .sendNack => none
  | .initCw => none

/-! ### Taking the next transaction (spec/20_memory.md R45) -/

/-- What the step finds to do. -/
inductive Fetched where
  /-- nothing has been presented: the block is idle -/
  | idle
  /-- the oldest packet has no meaning, or none here -/
  | refuse (r : Refusal)
  /-- the oldest transaction, and the state without it, in the context it runs in -/
  | run (i : Instr) (s : State)
  deriving DecidableEq, Repr

/-- The state without its oldest packet, in the context that packet runs in; the run has then started. -/
def State.take (s : State) (p : Packet) (rest : List Packet) : State :=
  { s with inputs := rest, context := s.contextFor p, started := true }

/-- Takes and decodes the oldest packet presented, where the contexts and the launch premise allow it. -/
def State.fetch (s : State) : Fetched :=
  match s.inputs with
  | [] => .idle
  | p :: rest =>
    match s.bars p with
    | some r => .refuse r
    | none =>
      match decode s.cfg p with
      | .reject r => .refuse (.undecodable r)
      | .instr i =>
        match s.launchBars i with
        | some r => .refuse r
        | none => .run i (s.take p rest)

/-- The state with a packet presented first. -/
def State.present (s : State) (p : Packet) : State := { s with inputs := p :: s.inputs }

/-- The context that must hold for a packet to be taken: some context for a primitive (the host's, where none is under
way), none for everything else. -/
def State.contextToTake (s : State) : Packet → Option Context
  | .prim _ _ => some (s.context.getD .host)
  | .cmd _ => none
  | .evt _ _ => none
  | .reset => none

/-- The mode the launch premise asks for a packet: `Ready` for INIT's frame, any for everything else. -/
def State.modeToTake (s : State) : Packet → Mode
  | .cmd f => if f = [0x00#8] then .ready else s.mode
  | .evt _ _ => s.mode
  | .prim _ _ => s.mode
  | .reset => s.mode

/-- Whether the launch premise asks for a run that has started: a reset begins one. -/
def State.startedToTake (s : State) : Packet → Bool
  | .cmd _ => s.started
  | .evt _ _ => s.started
  | .prim _ _ => s.started
  | .reset => false

/-- Whether the launch premise asks for INIT to have run: before every command but INIT. -/
def State.initialisedToTake (s : State) : Packet → Bool
  | .cmd f => s.initialised || f != [0x00#8]
  | .evt _ _ => s.initialised
  | .prim _ _ => s.initialised
  | .reset => s.initialised

/-- The state with a packet presented first, in the context and under the launch premise that let the next step take it
(log 9, log 19). -/
def State.presentReady (s : State) (p : Packet) : State :=
  { (s.present p).enterContext (s.contextToTake p) with
    mode := s.modeToTake p
    started := s.startedToTake p
    initialised := s.initialisedToTake p }

end Sys2Proof.Machine
end

