-- ==== Sys2Proof/Machine/Commands.lean ====
section
/-! DEFINITION. The host commands (spec/41_host_commands.md). -/

namespace Sys2Proof.Machine

/-- The transaction of TRANSMIT, which READ contains too (spec/41_host_commands.md R88, spec/44_operation_classes.md
R180): TooLong, then NotReady, then the writes, then the first primitive. -/
def State.transmitCommand (s : State) (rs : Bool) (data : List Byte) : Outcome :=
  if s.txTooLong data.length then .next (s.rejectCommand .tooLong)
  else if !s.ready then .next (s.rejectCommand .notReady)
  else if s.mode = .repeatedStartSent then
    match ((s.loadTx rs data).setMode .initializing).stageNext with
    | some t => .next (t.answer codeOk)
    | none => .fault (.txOutOfRange 0)
  else .next ((((s.loadTx rs data).setMode .initializing).issueStart).answer codeOk)

/-- INIT (spec/41_host_commands.md R86), whose pseudocode is unconditional. Its corner cases (b) and (c), which a model
should refuse, are the step's to refuse (`State.launchBars`); from INIT on the other commands may run
(spec/70_reset_and_hazards.md R157, log 26). -/
def execInit (s : State) : Outcome :=
  .next (((((((s.setMode .ready).setErr 0xFF#8).setRs false).writeBr s.cfg.brInit).writeEnable).setInitialised).answer
    0x00#8)

/-- ISREADY (spec/41_host_commands.md R87). -/
def execIsready (s : State) : Outcome := .next (s.answer (if s.ready then 0x01#8 else 0x00#8))

/-- TRANSMIT (spec/41_host_commands.md R88, R89). -/
def execTransmit (rs : Bool) (data : List Byte) (s : State) : Outcome := s.transmitCommand rs data

/-- READ (spec/41_host_commands.md R90): its own two tests and two counter writes, then TRANSMIT of the address frame. -/
def execRead (rs : Bool) (addr : BitVec 7) (n : Byte) (s : State) : Outcome :=
  if s.rxTooLong n then .next (s.rejectCommand .tooLong)
  else if !s.ready then .next (s.rejectCommand .notReady)
  else (s.setRx 0#8 n).transmitCommand rs [addressFrame addr]

/-- GETERR (spec/41_host_commands.md R91). -/
def execGeterr (s : State) : Outcome := .next (s.answer s.err)

/-- GETRXLEN (spec/41_host_commands.md R92). -/
def execGetrxlen (s : State) : Outcome := .next (s.answer s.rxlen)

/-- GETRXBYTE (spec/41_host_commands.md R93). -/
def execGetrxbyte (i : Byte) (s : State) : Outcome :=
  match s.readRx i.toNat with
  | some b => .next (s.answer b)
  | none => .refused (.rxIndexOutOfRange i)

/-- A frame with a reserved opcode (spec/30_encoding.md R73): refused, no state change, no primitive, no result. -/
def execCmdReserved (op : Byte) (_operands : List Byte) (_s : State) : Outcome := .refused (.reservedCommand op)

end Sys2Proof.Machine
end

