-- ==== Sys2Proof/Machine/Events.lean ====
section
/-! DEFINITION. The transition table (spec/42_event_fsm.md): its shared bodies and one meaning per status. Each meaning
enters the handler, runs the rule of its status in whatever mode the block is in (R96), and leaves the handler. -/

namespace Sys2Proof.Machine

/-- FINISH(e), the end of a transfer (spec/42_event_fsm.md R100). -/
def State.finish (s : State) (e : Byte) : State :=
  if s.rs then (s.setErr e).issueStart
  else ((s.setMode .ready).setErr e).issueStop

/-- TXSTEP (spec/42_event_fsm.md R97). -/
def State.txStep (s : State) : Outcome :=
  if s.txPending then
    match s.stageNext with
    | some t => t.leaveHandler
    | none => .fault (.txOutOfRange s.txidx.toNat)
  else (s.finish 0xFF#8).leaveHandler

/-- RXANSWER (spec/42_event_fsm.md R99). -/
def State.rxAnswer (s : State) : State := if s.rxMoreAfterNext then s.issueAck else s.issueNack

/-- S_START (spec/42_event_fsm.md R101). -/
def execEvtStart (sr : Byte) (s : State) : Outcome := (s.enterHandler sr).txStep

/-- S_SLAW_ACK: the one status on which the block enters MasterTransmitter (spec/42_event_fsm.md R102). -/
def execEvtSlawAck (sr : Byte) (s : State) : Outcome :=
  ((s.enterHandler sr).setMode .masterTransmitter).txStep

/-- S_TXD_ACK (spec/42_event_fsm.md R103). -/
def execEvtTxdAck (sr : Byte) (s : State) : Outcome := (s.enterHandler sr).txStep

/-- S_SLAR_ACK (spec/42_event_fsm.md R104). -/
def execEvtSlarAck (sr : Byte) (s : State) : Outcome :=
  ((s.enterHandler sr).setMode .masterReceiver).rxAnswer.leaveHandler

/-- S_RXD_ACK (spec/42_event_fsm.md R105). -/
def execEvtRxdAck (sr dr : Byte) (s : State) : Outcome :=
  match (s.enterHandlerRx sr dr).rxStore with
  | some t => t.rxAnswer.leaveHandler
  | none => .fault (.rxOverrun s.rxidx.toNat)

/-- S_RXD_NACK; it clears `ERR` on both branches (spec/42_event_fsm.md R106, spec/90_conflicts.md C4). -/
def execEvtRxdNack (sr dr : Byte) (s : State) : Outcome :=
  match (s.enterHandlerRx sr dr).rxStore with
  | some t => (t.finish 0xFF#8).leaveHandler
  | none => .fault (.rxOverrun s.rxidx.toNat)

/-- FINISH(s), the body of the four failures that end a transfer (spec/42_event_fsm.md R107 to R110): the masked status
is recorded. -/
def State.failTransfer (s : State) : Outcome := (s.finish s.statusCode).leaveHandler

/-- S_SLAR_NACK (spec/42_event_fsm.md R107). -/
def execEvtSlarNack (sr : Byte) (s : State) : Outcome := (s.enterHandler sr).failTransfer

/-- S_SLAW_NACK (spec/42_event_fsm.md R108). -/
def execEvtSlawNack (sr : Byte) (s : State) : Outcome := (s.enterHandler sr).failTransfer

/-- S_TXD_NACK (spec/42_event_fsm.md R109). -/
def execEvtTxdNack (sr : Byte) (s : State) : Outcome := (s.enterHandler sr).failTransfer

/-- S_ARB_LOST: only reported (spec/42_event_fsm.md R110). -/
def execEvtArbLost (sr : Byte) (s : State) : Outcome := (s.enterHandler sr).failTransfer

/-- S_RSTART: no primitive, EVF stays set (spec/42_event_fsm.md R111). -/
def execEvtRstart (sr : Byte) (s : State) : Outcome :=
  ((s.enterHandler sr).setMode .repeatedStartSent).leaveHandler

/-- S_BUSERR: `ERR <- s; MODE <- Ready`, stop; `RS` is not consulted (spec/42_event_fsm.md R112). -/
def execEvtBuserr (sr : Byte) (s : State) : Outcome :=
  ((((s.enterHandler sr).setErr (s.enterHandler sr).statusCode).setMode .ready).issueStop).leaveHandler

/-- S_NOINFO: no-op (spec/42_event_fsm.md R113). -/
def execEvtNoinfo (sr : Byte) (s : State) : Outcome := (s.enterHandler sr).leaveHandler

/-- Unlisted status: no-op, EVF stays set (spec/42_event_fsm.md R114). -/
def execEvtUnlisted (sr : Byte) (s : State) : Outcome := (s.enterHandler sr).leaveHandler

end Sys2Proof.Machine
end

