-- ==== Sys2Proof/Machine/Primitives.lean ====
section
/-! DEFINITION. The bus-control primitives (spec/40_primitives.md) and INIT's control word (spec/30_encoding.md R71).
Each reads and writes no state of the block and cannot fault (R78); that one is never issued on its own is the step's
to see to (`State.bars`). -/

namespace Sys2Proof.Machine

/-- SEND_START (spec/40_primitives.md R79). -/
def execSendStart (s : State) : Outcome := .next s.issueStart

/-- SEND_STOP (spec/40_primitives.md R80). -/
def execSendStop (s : State) : Outcome := .next s.issueStop

/-- SEND_TRANSMIT(b) (spec/40_primitives.md R81). -/
def execSendTransmit (b : Byte) (s : State) : Outcome := .next (s.issueTransmit b)

/-- SEND_ACK (spec/40_primitives.md R82). -/
def execSendAck (s : State) : Outcome := .next s.issueAck

/-- SEND_NACK (spec/40_primitives.md R83). -/
def execSendNack (s : State) : Outcome := .next s.issueNack

/-- INIT_CW, the control word INIT writes (spec/41_host_commands.md R86, spec/30_encoding.md R71). -/
def execInitCw (s : State) : Outcome := .next s.writeEnable

end Sys2Proof.Machine
end

