-- ==== Sys2Proof/Machine/Reset.lean ====
section
/-! DEFINITION. The reset input as a transaction (spec/70_reset_and_hazards.md R153). -/

namespace Sys2Proof.Machine

/-- RESET: every piece of the block's state, CR, EVF and the trace as spec/10_state.md R36 says, no primitive and no
`PeriphWrite`; DR, SR and BR, "unspecified" there, are free values (log 5); the parameters, the results given and the
transactions still to come are left (log 20). That a reset is the first transaction of a run or none
(spec/70_reset_and_hazards.md R155) is the step's to see to (`State.launchBars`), and it starts the run (log 25), whose first command is
then INIT (R157). -/
def execReset (s : State) : Outcome :=
  .next { State.resetWith s.cfg with
    dr := Config.freeByte s.draws
    sr := Config.freeByte (s.draws + 1)
    br := Config.freeDivisor (s.draws + 2)
    results := s.results
    inputs := s.inputs
    started := s.started
    draws := s.draws + 3 }

end Sys2Proof.Machine
end

