-- ==== Sys2Proof/Machine/Dispatch.lean ====
section
/-! DEFINITION. The dispatch: one arm per row of spec/opcode_table.json. -/

namespace Sys2Proof.Machine

def exec (i : Instr) (s : State) : Host.Outcome State Fault Refusal :=
  match i with
  | .init => Sys2Proof.Machine.execInit s
  | .isready => Sys2Proof.Machine.execIsready s
  | .transmit rs data => Sys2Proof.Machine.execTransmit rs data s
  | .read rs addr n => Sys2Proof.Machine.execRead rs addr n s
  | .geterr => Sys2Proof.Machine.execGeterr s
  | .getrxlen => Sys2Proof.Machine.execGetrxlen s
  | .getrxbyte k => Sys2Proof.Machine.execGetrxbyte k s
  | .cmdReserved op operands => Sys2Proof.Machine.execCmdReserved op operands s
  | .evtBuserr sr => Sys2Proof.Machine.execEvtBuserr sr s
  | .evtStart sr => Sys2Proof.Machine.execEvtStart sr s
  | .evtRstart sr => Sys2Proof.Machine.execEvtRstart sr s
  | .evtSlawAck sr => Sys2Proof.Machine.execEvtSlawAck sr s
  | .evtSlawNack sr => Sys2Proof.Machine.execEvtSlawNack sr s
  | .evtTxdAck sr => Sys2Proof.Machine.execEvtTxdAck sr s
  | .evtTxdNack sr => Sys2Proof.Machine.execEvtTxdNack sr s
  | .evtArbLost sr => Sys2Proof.Machine.execEvtArbLost sr s
  | .evtSlarAck sr => Sys2Proof.Machine.execEvtSlarAck sr s
  | .evtSlarNack sr => Sys2Proof.Machine.execEvtSlarNack sr s
  | .evtRxdAck sr dr => Sys2Proof.Machine.execEvtRxdAck sr dr s
  | .evtRxdNack sr dr => Sys2Proof.Machine.execEvtRxdNack sr dr s
  | .evtNoinfo sr => Sys2Proof.Machine.execEvtNoinfo sr s
  | .evtUnlisted sr => Sys2Proof.Machine.execEvtUnlisted sr s
  | .sendStart => Sys2Proof.Machine.execSendStart s
  | .sendStop => Sys2Proof.Machine.execSendStop s
  | .sendTransmit b => Sys2Proof.Machine.execSendTransmit b s
  | .sendAck => Sys2Proof.Machine.execSendAck s
  | .sendNack => Sys2Proof.Machine.execSendNack s
  | .initCw => Sys2Proof.Machine.execInitCw s
  | .reset => Sys2Proof.Machine.execReset s

end Sys2Proof.Machine
end

