-- ==== Sys2Proof/Machine/Step.lean ====
section
/-! DEFINITION. One step: the oldest transaction presented runs to its end (spec/20_memory.md R45); with nothing
presented the block stays as it is (spec/70_reset_and_hazards.md R154, R163, log 2). -/

namespace Sys2Proof.Machine

/-- One transaction, at whose end its context is left (spec/60_exceptions.md R147). -/
def step (s : State) : Host.Outcome State Fault Refusal :=
  match s.fetch with
  | .idle => .next s
  | .refuse r => .refused r
  | .run i t => endTransaction (exec i t)

/-- The state with a word of the opcode table presented as the next transaction, where the next step takes it: a primitive
in the middle of a host command, since one is never issued on its own (log 9), INIT in `Ready`, and every other command
after INIT (log 26, log 19). -/
def State.withFetchWord (s : State) (nbits w : Nat) : State := s.presentReady (tablePacket s.cfg nbits w)

end Sys2Proof.Machine
end

