-- ==== Sys2Proof/Safety.lean ====
section
/-! DEFINITION. The terms claims use: the invariant of the block (spec/10_state.md R23, R27), what `ERR` can hold
(R17), the launch premise (spec/70_reset_and_hazards.md R156, R157, R155), the end of a run (R175), and the two
premises of spec/43_peripheral_contract.md: a peripheral that follows the bus protocol, and a host that starts reads
with READ. None of it constrains a step: these are hypotheses of claims (spec/43_peripheral_contract.md, opening). -/

namespace Sys2Proof.Machine

/-! ### The block -/

/-- Parameters in range, buffers in canonical form and inside their capacities, and the counters of
spec/10_state.md R21, R23, R25, R27. -/
abbrev State.Inv (s : State) : Prop :=
  s.cfg.Wf ∧ Memory.wf s.txbuf ∧ Memory.wf s.rxbuf ∧
  (∀ x ∈ s.txbuf, x.1 < s.cfg.txMaxLen) ∧ (∀ x ∈ s.rxbuf, x.1 < s.cfg.rxMaxLen) ∧
  s.txlen.toNat ≤ s.cfg.txMaxLen ∧ s.txidx.toNat ≤ max s.txlen.toNat 1 ∧
  s.rxlen.toNat ≤ s.cfg.rxMaxLen ∧ s.rxidx.toNat ≤ s.cfg.rxMaxLen

/-- The five error statuses (spec/10_state.md R17, spec/60_exceptions.md R136). -/
def errorStatuses : List Status := [.slarNack, .slawNack, .txdNack, .arbLost, .buserr]

/-- The values `ERR` can hold (spec/10_state.md R17). -/
abbrev State.ErrLegal (s : State) : Prop :=
  s.err = 0xFF#8 ∨ ∃ st ∈ errorStatuses, s.err = s.cfg.statusEnc.code st

/-- The six control words the block ever writes (spec/30_encoding.md R71). -/
def legalControlWords : List ControlWord := [cwStart, cwStop, cwXmit, cwAck, cwNack, cwEnable]

/-! ### A run (spec/70_reset_and_hazards.md) -/

/-- The launch premise of one transaction (R155, R157, R169; spec/93_implementation_defined.md U7, U8, U14): what the step
refuses does not occur (`State.launchBars`: the first command is INIT, INIT is not issued while the block is not `Ready`,
a reset is the first transaction of a run), no opcode is reserved, and no event comes before the interrupt is enabled
(R154). The outside presents no primitive: the block issues them (spec/40_primitives.md R78). -/
def launchPremise (s : State) (i : Instr) : Bool :=
  (s.launchBars i).isNone &&
  match i with
  | .init => true
  | .reset => true
  | .isready => true
  | .transmit _ _ => true
  | .read _ _ _ => true
  | .geterr => true
  | .getrxlen => true
  | .getrxbyte _ => true
  | .cmdReserved _ _ => false
  | .evtBuserr _ => s.enabled
  | .evtStart _ => s.enabled
  | .evtRstart _ => s.enabled
  | .evtSlawAck _ => s.enabled
  | .evtSlawNack _ => s.enabled
  | .evtTxdAck _ => s.enabled
  | .evtTxdNack _ => s.enabled
  | .evtArbLost _ => s.enabled
  | .evtSlarAck _ => s.enabled
  | .evtSlarNack _ => s.enabled
  | .evtRxdAck _ _ => s.enabled
  | .evtRxdNack _ _ => s.enabled
  | .evtNoinfo _ => s.enabled
  | .evtUnlisted _ => s.enabled
  | .sendStart => false
  | .sendStop => false
  | .sendTransmit _ => false
  | .sendAck => false
  | .sendNack => false
  | .initCw => false

/-- A run has ended well (R175): nothing is left to take, and `ready` holds. -/
def State.endedWell (s : State) : Bool := s.inputs.isEmpty && s.ready

/-! ### The peripheral as the contract describes it (spec/43_peripheral_contract.md) -/

/-- What the peripheral has been asked to do and has not reported yet. -/
inductive Busy where
  | nothing
  | start
  | byte (b : Byte)
  | receive (ack : Bool)
  deriving DecidableEq, Repr

/-- What the contract needs to know of the peripheral: whether the block owns the bus, whether the next byte sent is
an address byte, what is outstanding, and the byte staged in DR. It is no state of the block (spec/10_state.md R34). -/
structure Bus where
  owned : Bool
  atAddress : Bool
  busy : Busy
  staged : Option Byte
  deriving DecidableEq, Repr

/-- The bus before anything was asked of the peripheral. -/
def Bus.idle : Bus := ⟨false, false, .nothing, none⟩

/-- A write of the trace as the peripheral sees it: a control word with `evack = 1` is a primitive
(spec/40_primitives.md R79 to R83), and one that follows a DR write is SEND_TRANSMIT (spec/30_encoding.md R72). -/
def Bus.see (b : Bus) : PeriphWrite → Bus
  | .br _ => b
  | .dr x => { b with staged := some x }
  | .cr w =>
    if !w.evack then { b with staged := none }
    else if w.start then { b with busy := .start, staged := none }
    else if w.stop then { b with owned := false, busy := .nothing, staged := none }
    else if w.acken then { b with busy := .receive true, staged := none }
    else
      match b.staged with
      | some x => { b with busy := .byte x, staged := none }
      | none => { b with busy := .receive false, staged := none }

/-- May the peripheral deliver this event now (spec/43_peripheral_contract.md R122 to R128)? Everything that is no
event is the host's to present. -/
def Bus.allows (b : Bus) : Instr → Bool
  | .evtBuserr _ => true
  | .evtStart _ => b.busy == .start && !b.owned
  | .evtRstart _ => b.busy == .start && b.owned
  | .evtSlawAck _ => match b.busy with | .byte x => b.atAddress && !x.getLsbD 0 | _ => false
  | .evtSlawNack _ => match b.busy with | .byte x => b.atAddress && !x.getLsbD 0 | _ => false
  | .evtSlarAck _ => match b.busy with | .byte x => b.atAddress && x.getLsbD 0 | _ => false
  | .evtSlarNack _ => match b.busy with | .byte x => b.atAddress && x.getLsbD 0 | _ => false
  | .evtTxdAck _ => match b.busy with | .byte _ => !b.atAddress | _ => false
  | .evtTxdNack _ => match b.busy with | .byte _ => !b.atAddress | _ => false
  | .evtArbLost _ => match b.busy with | .byte _ => true | .receive _ => true | _ => false
  | .evtRxdAck _ _ => b.busy == .receive true
  | .evtRxdNack _ _ => b.busy == .receive false
  | .evtNoinfo _ => false
  | .evtUnlisted _ => false
  | .init => true
  | .isready => true
  | .transmit _ _ => true
  | .read _ _ _ => true
  | .geterr => true
  | .getrxlen => true
  | .getrxbyte _ => true
  | .cmdReserved _ _ => true
  | .sendStart => true
  | .sendStop => true
  | .sendTransmit _ => true
  | .sendAck => true
  | .sendNack => true
  | .initCw => true
  | .reset => true

/-- What delivering an event, or a reset, does to the bus. After an event nothing is outstanding any more; a start gives
the block the bus and makes the next byte an address byte (R122, R123); arbitration loss and a bus error take the bus
away (R122, R127).

DESIGN CHOICE (log 24): RESET puts this bus at `Bus.idle`. spec/70_reset_and_hazards.md R155 says that the peripheral and
the bus are not told of a reset and that what the peripheral then does is not in the source; the premise takes a
peripheral on which nothing is outstanding then. -/
def Bus.deliver (b : Bus) : Instr → Bus
  | .evtBuserr _ => { b with owned := false, busy := .nothing }
  | .evtStart _ => { b with owned := true, atAddress := true, busy := .nothing }
  | .evtRstart _ => { b with owned := true, atAddress := true, busy := .nothing }
  | .evtSlawAck _ => { b with atAddress := false, busy := .nothing }
  | .evtSlawNack _ => { b with busy := .nothing }
  | .evtSlarAck _ => { b with atAddress := false, busy := .nothing }
  | .evtSlarNack _ => { b with busy := .nothing }
  | .evtTxdAck _ => { b with busy := .nothing }
  | .evtTxdNack _ => { b with busy := .nothing }
  | .evtArbLost _ => { b with owned := false, busy := .nothing }
  | .evtRxdAck _ _ => { b with busy := .nothing }
  | .evtRxdNack _ _ => { b with busy := .nothing }
  | .reset => Bus.idle
  | .evtNoinfo _ => b
  | .evtUnlisted _ => b
  | .init => b
  | .isready => b
  | .transmit _ _ => b
  | .read _ _ _ => b
  | .geterr => b
  | .getrxlen => b
  | .getrxbyte _ => b
  | .cmdReserved _ _ => b
  | .sendStart => b
  | .sendStop => b
  | .sendTransmit _ => b
  | .sendAck => b
  | .sendNack => b
  | .initCw => b

/-- The bus after a transaction that took the block from `s` to `t`: the event is delivered, then the peripheral sees
the writes the transaction added to the trace. -/
def Bus.after (b : Bus) (i : Instr) (s t : State) : Bus :=
  (t.trace.drop s.trace.length).foldl Bus.see (b.deliver i)

/-- No TRANSMIT begins with a read address (spec/70_reset_and_hazards.md R166): the byte it sends first has bit 0 = 0, the
stale one of a zero-length TRANSMIT (spec/41_host_commands.md R89 (e)) included. -/
def noReadFrameInTransmit (s : State) : Instr → Bool
  | .transmit _ (b :: _) => !b.getLsbD 0
  | .transmit _ [] => !(s.mode == .repeatedStartSent) || !(s.txbuf.read 0).getLsbD 0
  | _ => true

/-- The byte S_START is about to send is no read address that TRANSMIT loaded. It is an address byte whatever its place
in the frame: spec/43_peripheral_contract.md R123 calls the first byte after S_START one. READ's frame is one byte long,
so a byte at `TXIDX > 0` is TRANSMIT's; the frame's first byte is `noReadFrameInTransmit`'s to judge. -/
def noReadResumedInTransmit (s : State) : Instr → Bool
  | .evtStart _ => s.txidx == 0#8 || !s.txPending || !(s.txbuf.read s.txidx.toNat).getLsbD 0
  | _ => true

/-- The host starts reads with READ only, "never by putting an address byte with bit 0 = 1 into TRANSMIT"
(spec/43_peripheral_contract.md R129), where an address byte is what R123 calls one (log 21). -/
def readsOnlyWithRead (s : State) (i : Instr) : Bool := noReadFrameInTransmit s i && noReadResumedInTransmit s i

/-- The premises of spec/43_peripheral_contract.md R129 on one transaction: a conformant peripheral, under the launch
premise, and a host that starts reads with READ only. -/
def contractKept (b : Bus) (s : State) (i : Instr) : Bool :=
  launchPremise s i && b.allows i && readsOnlyWithRead s i

/-- The same without a word on data bytes that a lost arbitration turns into address bytes
(spec/70_reset_and_hazards.md R168). -/
def frameContractKept (b : Bus) (s : State) (i : Instr) : Bool :=
  launchPremise s i && b.allows i && noReadFrameInTransmit s i

/-- The one transaction that `frameContractKept` lets leave a read address about to go out while `RXBUF` is full:
arbitration lost with `RS = 1`, after which the block goes on, as spec/70_reset_and_hazards.md R168 says it must, with a
next data byte whose bit 0 is 1 (log 21). -/
def ResumesAsReadWhenFull (s : State) (i : Instr) : Prop :=
  (∃ sr, i = .evtArbLost sr) ∧ s.rs = true ∧ s.txPending = true ∧
  (s.txbuf.read s.txidx.toNat).getLsbD 0 = true ∧ s.rxidx.toNat = s.cfg.rxMaxLen

/-- What is outstanding at the peripheral bounds `RXIDX`, with `atStart` where S_START would send a read address. -/
abbrev RxBound (b : Bus) (s : State) (atStart : Prop) : Prop :=
  s.Inv ∧ b.staged = none ∧
  (s.mode = .repeatedStartSent → b.owned = true ∧ b.busy = .nothing) ∧
  (match b.busy with
    | .nothing => True
    | .start =>
      b.owned = false → s.txPending = true → (s.txbuf.read s.txidx.toNat).getLsbD 0 = true → atStart
    | .byte x => b.owned = true ∧ (b.atAddress = true → x.getLsbD 0 = true → s.rxidx.toNat < s.cfg.rxMaxLen)
    | .receive true => b.owned = true ∧ s.rxidx.toNat + 1 < s.rxlen.toNat
    | .receive false => b.owned = true ∧ s.rxidx.toNat < s.cfg.rxMaxLen)

/-- Something of the frame has gone out: a byte, or the bytes a slave sends after one. -/
abbrev FrameBegun (b : Bus) (s : State) : Prop :=
  match b.busy with
  | .nothing => True
  | .start => True
  | .byte _ => s.txidx ≠ 0#8
  | .receive _ => s.txidx ≠ 0#8

/-- Why no receive store is out of range under the contract (spec/43_peripheral_contract.md R129): a read address that
S_START sends is a frame's first byte, READ's, and READ has made room. -/
abbrev RxSafe (b : Bus) (s : State) : Prop :=
  RxBound b s (s.txidx = 0#8 → s.rxidx.toNat < s.cfg.rxMaxLen) ∧ FrameBegun b s

/-- The bound that `frameContractKept` keeps, but for the one transaction `ResumesAsReadWhenFull`: there is room for a
read wherever S_START would begin one. -/
abbrev RxRoom (b : Bus) (s : State) : Prop := RxBound b s (s.rxidx.toNat < s.cfg.rxMaxLen)

/-- In `k` steps from `s`, with the bus at `b`, every transaction taken is an instruction of which `P` holds. -/
def RunKeeps (P : Bus → State → Instr → Prop) : Nat → Bus → State → Prop
  | 0, _, _ => True
  | k + 1, b, s =>
    match s.inputs with
    | [] => True
    | p :: _ =>
      match decode s.cfg p with
      | .reject _ => False
      | .instr i => P b s i ∧ ∀ t, step s = .next t → RunKeeps P k (b.after i s t) t

end Sys2Proof.Machine
end

