-- ==== Sys2Proof/Certificates/Slice0/Obligations.lean ====
section
/-! DEFINITION. The statements for the provers. Each cites the rule of spec/ it says; OBLIGATIONS.json holds the same
with the spec's words. Every result statement gives the WHOLE next state, so it is also the instruction's frame. -/

open Sys2Proof Sys2Proof.Machine

namespace Sys2Proof.Certificates

/-! ### The tables the statements compare with -/

/-- An event of `spec/42_event_fsm.md` on TXSTEP's row answers `o` in state `s`, entering mode `m` (R97, R100). -/
def TxRule (o : Outcome) (s : State) (sr : Byte) (m : Mode) : Prop :=
  (s.txidx.toNat < s.txlen.toNat → s.txlen.toNat ≤ s.cfg.txMaxLen →
    o = .next { s with
      mode := m, txidx := s.txidx + 1#8, sr := sr, dr := s.txbuf.read s.txidx.toNat, cr := cwXmit, evf := false,
      trace := s.trace ++ [.dr (s.txbuf.read s.txidx.toNat), .cr cwXmit] }) ∧
  (s.txlen.toNat ≤ s.txidx.toNat → s.rs = true →
    o = .next { s with
      mode := m, err := 0xFF#8, sr := sr, cr := cwStart, evf := false, trace := s.trace ++ [.cr cwStart] }) ∧
  (s.txlen.toNat ≤ s.txidx.toNat → s.rs = false →
    o = .next { s with
      mode := .ready, err := 0xFF#8, sr := sr, cr := cwStop, evf := false, trace := s.trace ++ [.cr cwStop] })

/-- A failure that ends a transfer answers `o` in state `s` (R107 to R110). -/
def FailRule (o : Outcome) (s : State) (sr : Byte) : Prop :=
  (s.rs = true →
    o = .next { s with
      err := sr &&& s.cfg.statusMask, sr := sr, cr := cwStart, evf := false, trace := s.trace ++ [.cr cwStart] }) ∧
  (s.rs = false →
    o = .next { s with
      mode := .ready, err := sr &&& s.cfg.statusMask, sr := sr, cr := cwStop, evf := false,
      trace := s.trace ++ [.cr cwStop] })

/-- The contents of a buffer after one store. -/
def StoredAt (m m' : Memory) (i : Nat) (b : Byte) : Prop :=
  m'.wf ∧ ∀ a, m'.read a = if a = i then b else m.read a

/-- The contents of a buffer after a copy of `data` to its start. -/
def CopiedIn (m m' : Memory) (data : List Byte) : Prop :=
  m'.wf ∧ ∀ a, m'.read a = if a < data.length then data.getD a 0#8 else m.read a

/-- `MODE` is neither `Ready` nor `RepeatedStartSent`. -/
abbrev Transient (s : State) : Prop := s.mode ≠ .ready ∧ s.mode ≠ .repeatedStartSent

/-- The frames that have no meaning (spec/30_encoding.md R73). -/
def Refusable (c : Config) : List Byte → Prop
  | [] => True
  | op :: rest =>
    7 ≤ op.toNat ∨
    ((op = 0x00#8 ∨ op = 0x01#8 ∨ op = 0x04#8 ∨ op = 0x05#8) ∧ rest ≠ []) ∨
    (op = 0x02#8 ∧ (rest.length < 2 ∨ (rest.getD 1 0#8).toNat ≠ rest.length - 2 ∨ 2 ≤ (rest.getD 0 0#8).toNat)) ∨
    (op = 0x03#8 ∧ (rest.length ≠ 3 ∨ 2 ≤ (rest.getD 0 0#8).toNat ∨ 128 ≤ (rest.getD 1 0#8).toNat)) ∨
    (op = 0x06#8 ∧ (rest.length ≠ 1 ∨ c.rxMaxLen ≤ (rest.getD 0 0#8).toNat))

/-- The frames the launch premise refuses (spec/41_host_commands.md R86, spec/70_reset_and_hazards.md R157, R169): INIT
outside `Ready`, and any other command before INIT. -/
abbrev BreaksLaunchPremise (s : State) (f : List Byte) : Prop :=
  (f = [0x00#8] ∧ s.mode ≠ .ready) ∨ (f ≠ [0x00#8] ∧ s.initialised = false)

/-- A packet on the command port. -/
def isCommand : Packet → Bool
  | .cmd _ => true
  | .evt _ _ => false
  | .prim _ _ => false
  | .reset => false

/-- The writes of a transfer's end (spec/42_event_fsm.md R100). -/
def endWrite (s : State) : List PeriphWrite := if s.rs then [.cr cwStart] else [.cr cwStop]

/-- The writes of TXSTEP's row (spec/40_primitives.md R84). -/
def txWrites (s : State) : List PeriphWrite :=
  if s.txidx.toNat < s.txlen.toNat then [.dr (s.txbuf.read s.txidx.toNat), .cr cwXmit] else endWrite s

/-- The writes of an accepted TRANSMIT or READ, whose frame's first byte is `b` (spec/40_primitives.md R84). -/
def armWrites (s : State) (b : Byte) : List PeriphWrite :=
  match s.mode with
  | .ready => [.cr cwStart]
  | .repeatedStartSent => [.dr b, .cr cwXmit]
  | .initializing => []
  | .masterTransmitter => []
  | .masterReceiver => []

/-- What each transaction writes to the peripheral (spec/40_primitives.md R84, spec/30_encoding.md R71). -/
def issued (s : State) : Instr → List PeriphWrite
  | .init => [.br s.cfg.brInit, .cr cwEnable]
  | .transmit _ data => if s.cfg.txMaxLen < data.length then [] else armWrites s (data.headD (s.txbuf.read 0))
  | .read _ addr n => if s.cfg.rxMaxLen < n.toNat then [] else armWrites s ((addr.setWidth 8 <<< 1) ||| 1#8)
  | .isready => []
  | .geterr => []
  | .getrxlen => []
  | .getrxbyte _ => []
  | .cmdReserved _ _ => []
  | .evtStart _ => txWrites s
  | .evtSlawAck _ => txWrites s
  | .evtTxdAck _ => txWrites s
  | .evtSlarAck _ => if s.rxidx.toNat + 1 < s.rxlen.toNat then [.cr cwAck] else [.cr cwNack]
  | .evtRxdAck _ _ => if s.rxidx.toNat + 2 < s.rxlen.toNat then [.cr cwAck] else [.cr cwNack]
  | .evtRxdNack _ _ => endWrite s
  | .evtSlarNack _ => endWrite s
  | .evtSlawNack _ => endWrite s
  | .evtTxdNack _ => endWrite s
  | .evtArbLost _ => endWrite s
  | .evtBuserr _ => [.cr cwStop]
  | .evtRstart _ => []
  | .evtNoinfo _ => []
  | .evtUnlisted _ => []
  | .sendStart => [.cr cwStart]
  | .sendStop => [.cr cwStop]
  | .sendTransmit b => [.dr b, .cr cwXmit]
  | .sendAck => [.cr cwAck]
  | .sendNack => [.cr cwNack]
  | .initCw => [.cr cwEnable]
  | .reset => []

/-- A write that is a primitive: a control word with `evack = 1` (spec/40_primitives.md R78). -/
def isPrimitive : PeriphWrite → Bool
  | .cr w => w.evack
  | .dr _ => false
  | .br _ => false

/-- `MODE` after TXSTEP's row entered with mode `m`, and after the other rows that end a transfer (R115). -/
def modeAtEnd (s : State) (m : Mode) : Mode := if s.rs then m else .ready

/-- `MODE` after each event (spec/42_event_fsm.md R115); other transactions keep it here. -/
def modeAfterEvent (s : State) : Instr → Mode
  | .evtStart _ => if s.txidx.toNat < s.txlen.toNat then s.mode else modeAtEnd s s.mode
  | .evtTxdAck _ => if s.txidx.toNat < s.txlen.toNat then s.mode else modeAtEnd s s.mode
  | .evtSlawAck _ => if s.txidx.toNat < s.txlen.toNat then .masterTransmitter else modeAtEnd s .masterTransmitter
  | .evtSlarAck _ => .masterReceiver
  | .evtRxdNack _ _ => modeAtEnd s s.mode
  | .evtSlarNack _ => modeAtEnd s s.mode
  | .evtSlawNack _ => modeAtEnd s s.mode
  | .evtTxdNack _ => modeAtEnd s s.mode
  | .evtArbLost _ => modeAtEnd s s.mode
  | .evtRstart _ => .repeatedStartSent
  | .evtBuserr _ => .ready
  | _ => s.mode

/-- The instructions that are status events. -/
def IsEvent : Instr → Prop
  | .evtBuserr _ => True
  | .evtStart _ => True
  | .evtRstart _ => True
  | .evtSlawAck _ => True
  | .evtSlawNack _ => True
  | .evtTxdAck _ => True
  | .evtTxdNack _ => True
  | .evtArbLost _ => True
  | .evtSlarAck _ => True
  | .evtSlarNack _ => True
  | .evtRxdAck _ _ => True
  | .evtRxdNack _ _ => True
  | .evtNoinfo _ => True
  | .evtUnlisted _ => True
  | _ => False

/-- `ERR` after each instruction: the complete list of its writes (spec/42_event_fsm.md R118). -/
def errAfter (s : State) : Instr → Byte
  | .init => 0xFF#8
  | .reset => 0xFF#8
  | .evtStart _ => if s.txidx.toNat < s.txlen.toNat then s.err else 0xFF#8
  | .evtSlawAck _ => if s.txidx.toNat < s.txlen.toNat then s.err else 0xFF#8
  | .evtTxdAck _ => if s.txidx.toNat < s.txlen.toNat then s.err else 0xFF#8
  | .evtRxdNack _ _ => 0xFF#8
  | .evtSlarNack sr => sr &&& s.cfg.statusMask
  | .evtSlawNack sr => sr &&& s.cfg.statusMask
  | .evtTxdNack sr => sr &&& s.cfg.statusMask
  | .evtArbLost sr => sr &&& s.cfg.statusMask
  | .evtBuserr sr => sr &&& s.cfg.statusMask
  | _ => s.err

/-- `RS` after each instruction (spec/10_state.md R18). -/
def rsAfter (s : State) : Instr → Bool
  | .init => false
  | .reset => false
  | .transmit rs data => if data.length ≤ s.cfg.txMaxLen ∧ s.ready = true then rs else s.rs
  | .read rs _ n => if n.toNat ≤ s.cfg.rxMaxLen ∧ s.ready = true then rs else s.rs
  | _ => s.rs

/-- How many result bytes each instruction gives (spec/30_encoding.md R60): a command one, anything else none. -/
def resultCount : Instr → Nat
  | .init => 1
  | .isready => 1
  | .transmit _ _ => 1
  | .read _ _ _ => 1
  | .geterr => 1
  | .getrxlen => 1
  | .getrxbyte _ => 1
  | _ => 0

/-- The block's own nine members (spec/10_state.md R13) are the same in two states. -/
def SameOwn (s t : State) : Prop :=
  s.mode = t.mode ∧ s.err = t.err ∧ s.rs = t.rs ∧ s.txbuf = t.txbuf ∧ s.txlen = t.txlen ∧ s.txidx = t.txidx ∧
  s.rxbuf = t.rxbuf ∧ s.rxlen = t.rxlen ∧ s.rxidx = t.rxidx

/-- An event with the code of a named status. -/
def eventOf (c : Config) (st : Status) (dr : Byte) : Packet := .evt (c.statusEnc.code st) dr

/-- The control words the block writes, in a trace (spec/30_encoding.md R71, R72). -/
def TraceLegal (s : State) : Prop := ∀ w, PeriphWrite.cr w ∈ s.trace → w ∈ legalControlWords

end Sys2Proof.Certificates

open Sys2Proof.Certificates

/-! ### Encoding and the step -/

/-- Words written out by hand from spec/30_encoding.md R58, R66, R71 (spec/95_test_vectors.md VC1, VC8, VC11, VC20, VE1,
VE8, VE22, VP1, VP3). -/
def Obligations.SampleEncodingsDecode : Prop :=
  decode Config.default (.cmd [0x00#8]) = .instr .init ∧
  decode Config.default (.cmd [0x02#8, 0x00#8, 0x02#8, 0xA0#8, 0x00#8]) = .instr (.transmit false [0xA0#8, 0x00#8]) ∧
  decode Config.default (.cmd [0x03#8, 0x00#8, 0x50#8, 0x03#8]) = .instr (.read false 0x50#7 3#8) ∧
  decode Config.default (.cmd [0x06#8, 0x02#8]) = .instr (.getrxbyte 2#8) ∧
  decode Config.default (.evt 0x08#8 0#8) = .instr (.evtStart 0x08#8) ∧
  decode Config.default (.evt 0x50#8 0x11#8) = .instr (.evtRxdAck 0x50#8 0x11#8) ∧
  decode Config.default (.evt 0x60#8 0#8) = .instr (.evtUnlisted 0x60#8) ∧
  decode Config.default (.prim none 0xA5#8) = .instr .sendStart ∧
  decode Config.default (.prim (some 0x3C#8) 0x85#8) = .instr (.sendTransmit 0x3C#8)

/-- Decoding an encoded well-formed instruction gives it back, for every legal choice of the parameters
(spec/30_encoding.md R58, R59, R61, R64 to R68, R71). -/
def Obligations.DecodeOfEncodeIsIdentity : Prop :=
  ∀ (c : Config) (i : Instr), c.Wf → i.wf c = true → decode c (encode c i) = .instr i

/-- A command frame that decodes is the one encoding of its instruction (spec/30_encoding.md R58, R59, R61, R77). -/
def Obligations.DecodedFrameIsTheEncoding : Prop :=
  ∀ (c : Config) (f : List Byte) (i : Instr),
    decode c (.cmd f) = .instr i → i.wf c = true ∧ encode c i = .cmd f

/-- The masked status alone selects the event's rule (spec/42_event_fsm.md R95, R96; spec/30_encoding.md R65, R67). -/
def Obligations.MaskedStatusSelectsTheRule : Prop :=
  ∀ (c : Config) (sr dr : Byte), c.Wf →
    (sr &&& c.statusMask = c.statusEnc.buserr → decode c (.evt sr dr) = .instr (.evtBuserr sr)) ∧
    (sr &&& c.statusMask = c.statusEnc.start → decode c (.evt sr dr) = .instr (.evtStart sr)) ∧
    (sr &&& c.statusMask = c.statusEnc.rstart → decode c (.evt sr dr) = .instr (.evtRstart sr)) ∧
    (sr &&& c.statusMask = c.statusEnc.slawAck → decode c (.evt sr dr) = .instr (.evtSlawAck sr)) ∧
    (sr &&& c.statusMask = c.statusEnc.slawNack → decode c (.evt sr dr) = .instr (.evtSlawNack sr)) ∧
    (sr &&& c.statusMask = c.statusEnc.txdAck → decode c (.evt sr dr) = .instr (.evtTxdAck sr)) ∧
    (sr &&& c.statusMask = c.statusEnc.txdNack → decode c (.evt sr dr) = .instr (.evtTxdNack sr)) ∧
    (sr &&& c.statusMask = c.statusEnc.arbLost → decode c (.evt sr dr) = .instr (.evtArbLost sr)) ∧
    (sr &&& c.statusMask = c.statusEnc.slarAck → decode c (.evt sr dr) = .instr (.evtSlarAck sr)) ∧
    (sr &&& c.statusMask = c.statusEnc.slarNack → decode c (.evt sr dr) = .instr (.evtSlarNack sr)) ∧
    (sr &&& c.statusMask = c.statusEnc.rxdAck → decode c (.evt sr dr) = .instr (.evtRxdAck sr dr)) ∧
    (sr &&& c.statusMask = c.statusEnc.rxdNack → decode c (.evt sr dr) = .instr (.evtRxdNack sr dr)) ∧
    (sr &&& c.statusMask = c.statusEnc.noinfo → decode c (.evt sr dr) = .instr (.evtNoinfo sr)) ∧
    ((∀ st ∈ Status.all, sr &&& c.statusMask ≠ c.statusEnc.code st) →
      decode c (.evt sr dr) = .instr (.evtUnlisted sr))

/-- Between transactions a frame that spec/30_encoding.md R73 lists is refused, whatever the state; and one that is refused
without breaking the launch premise (`Obligations.InitFirstAndOnlyWhenIdle`) is one of R73's list. The reserved opcodes
stop by name. -/
def Obligations.ExactlyTheListedFramesAreRefused : Prop :=
  (∀ (s : State) (f : List Byte) (q : List Packet), s.context = none → s.inputs = .cmd f :: q →
    (Refusable s.cfg f → ∃ r, step s = .refused r) ∧
    (¬ BreaksLaunchPremise s f → (∃ r, step s = .refused r) → Refusable s.cfg f)) ∧
  (∀ (op : Byte) (operands : List Byte) (s : State),
    exec (.cmdReserved op operands) s = .refused (.reservedCommand op))

/-- A step takes the oldest packet and runs the instruction it decodes to, in the host's context for a command, the
handler's for an event, none for a reset and the one under way for a primitive, and leaves the context at the end
(spec/20_memory.md R45, spec/60_exceptions.md R147); a packet that is no instruction, a primitive on its own
(spec/40_primitives.md R78), a second transaction inside one (spec/60_exceptions.md R145), a reset that is not the first
transaction of the run (spec/70_reset_and_hazards.md R155), INIT in a mode other than `Ready`
(spec/41_host_commands.md R86) and any other command before INIT (spec/70_reset_and_hazards.md R157) are refused; with
nothing presented the state stays (spec/70_reset_and_hazards.md R154; log 1, log 2, log 9, log 25, log 26). -/
def Obligations.StepRunsTheDecodedTransaction : Prop :=
  (∀ (s : State) (f : List Byte) (q : List Packet) (i : Instr),
    s.inputs = .cmd f :: q → s.context = none → decode s.cfg (.cmd f) = .instr i →
    (i = .init → s.mode = .ready) →
    (i ≠ .init → s.initialised = true ∨ ∃ op operands, i = .cmdReserved op operands) →
      step s = endTransaction (exec i { s with inputs := q, context := some .host, started := true })) ∧
  (∀ (s : State) (sr dr : Byte) (q : List Packet) (i : Instr),
    s.inputs = .evt sr dr :: q → s.context = none → decode s.cfg (.evt sr dr) = .instr i →
      step s = endTransaction (exec i { s with inputs := q, context := some .handler, started := true })) ∧
  (∀ (s : State) (q : List Packet), s.inputs = .reset :: q → s.context = none → s.started = false →
    step s = endTransaction (exec .reset { s with inputs := q, started := true })) ∧
  (∀ (s : State) (b : Option Byte) (w : Byte) (q : List Packet) (i : Instr),
    s.inputs = .prim b w :: q → s.context ≠ none → decode s.cfg (.prim b w) = .instr i →
      step s = endTransaction (exec i { s with inputs := q, started := true })) ∧
  (∀ s : State, endTransaction (.next s) = .next { s with context := none }) ∧
  (∀ f : Fault, endTransaction (.fault f) = .fault f) ∧
  (∀ r : Refusal, endTransaction (.refused r) = .refused r) ∧
  (∀ (s : State) (f : List Byte) (q : List Packet) (r : Reject),
    s.inputs = .cmd f :: q → s.context = none → decode s.cfg (.cmd f) = .reject r →
      step s = .refused (.undecodable r)) ∧
  (∀ (s : State) (b : Option Byte) (w : Byte) (q : List Packet) (r : Reject),
    s.inputs = .prim b w :: q → s.context ≠ none → decode s.cfg (.prim b w) = .reject r →
      step s = .refused (.undecodable r)) ∧
  (∀ (s : State) (b : Option Byte) (w : Byte) (q : List Packet),
    s.inputs = .prim b w :: q → s.context = none → step s = .refused .primitiveAlone) ∧
  (∀ (s : State) (p : Packet) (q : List Packet),
    s.inputs = p :: q → (∀ b w, p ≠ .prim b w) → s.context ≠ none → step s = .refused .insideTransaction) ∧
  (∀ (s : State) (q : List Packet), s.inputs = .reset :: q → s.context = none → s.started = true →
    step s = .refused .resetInRun) ∧
  (∀ (s : State) (q : List Packet), s.inputs = .cmd [0x00#8] :: q → s.context = none → s.mode ≠ .ready →
    step s = .refused .initNotIdle) ∧
  (∀ (s : State) (f : List Byte) (q : List Packet) (i : Instr),
    s.inputs = .cmd f :: q → s.context = none → decode s.cfg (.cmd f) = .instr i → i ≠ .init → s.initialised = false →
    (∀ op operands, i ≠ .cmdReserved op operands) → step s = .refused .beforeInit) ∧
  (∀ s : State, s.inputs = [] → step s = .next s)

/-! ### Reset -/

/-- The state after reset (spec/10_state.md R36), for every choice of the parameters, and INIT after it, which leaves the
block's own state as it is; what R36 leaves unspecified (DR, SR, BR) is not claimed. -/
def Obligations.StateAfterReset : Prop :=
  ∀ c : Config,
    (State.resetWith c).mode = .ready ∧ (State.resetWith c).err = 0xFF#8 ∧ (State.resetWith c).rs = false ∧
    (State.resetWith c).txlen = 0#8 ∧ (State.resetWith c).txidx = 0#8 ∧
    (State.resetWith c).rxlen = 0#8 ∧ (State.resetWith c).rxidx = 0#8 ∧
    (∀ k, (State.resetWith c).txbuf.read k = 0x00#8) ∧ (∀ k, (State.resetWith c).rxbuf.read k = 0x00#8) ∧
    (State.resetWith c).cr = ⟨false, false, false, false, false, false⟩ ∧ (State.resetWith c).evf = false ∧
    (State.resetWith c).trace = [] ∧ State.reset = State.resetWith State.reset.cfg ∧
    ∃ t, exec .init (State.resetWith c) = .next t ∧ SameOwn t (State.resetWith c)

/-- RESET as a transaction (spec/70_reset_and_hazards.md R153). That its meaning gives this effect in every state is the
model's choice (log 7): a step takes a RESET as the first transaction of a run only, as R155 says
(`Obligations.ResetOnlyStartsARun`). -/
def Obligations.ResetTransactionEffect : Prop :=
  ∀ s : State, ∃ t, exec .reset s = .next t ∧
    t.mode = .ready ∧ t.err = 0xFF#8 ∧ t.rs = false ∧ t.txlen = 0#8 ∧ t.txidx = 0#8 ∧ t.rxlen = 0#8 ∧ t.rxidx = 0#8 ∧
    (∀ k, t.txbuf.read k = 0x00#8) ∧ (∀ k, t.rxbuf.read k = 0x00#8) ∧
    t.cr = ⟨false, false, false, false, false, false⟩ ∧ t.evf = false ∧ t.trace = []

/-! ### Host commands -/

/-- INIT, by the pseudocode of spec/41_host_commands.md R86. That its meaning gives this effect in every mode, as the
pseudocode does, is the model's choice (log 7): a step takes INIT in `Ready` only, as the corner cases of R86 say
(`Obligations.InitFirstAndOnlyWhenIdle`). That INIT has run is the model's record of it (log 26). -/
def Obligations.InitEffect : Prop :=
  (∀ c : Config, decode c (.cmd [0x00#8]) = .instr .init) ∧
  ∀ s : State, exec .init s = .next { s with
    mode := .ready, err := 0xFF#8, rs := false, br := s.cfg.brInit,
    cr := { ien := true, pen := true, start := false, stop := false, acken := false, evack := false },
    trace := s.trace ++ [.br s.cfg.brInit,
      .cr { ien := true, pen := true, start := false, stop := false, acken := false, evack := false }],
    initialised := true, results := s.results ++ [0x00#8] }

/-- ISREADY (spec/41_host_commands.md R87). -/
def Obligations.IsreadyEffect : Prop :=
  (∀ c : Config, decode c (.cmd [0x01#8]) = .instr .isready) ∧
  ∀ s : State,
    (s.mode = .ready ∨ s.mode = .repeatedStartSent →
      exec .isready s = .next { s with results := s.results ++ [0x01#8] }) ∧
    (Transient s → exec .isready s = .next { s with results := s.results ++ [0x00#8] })

/-- GETERR and GETRXLEN, the pseudocode "return ERR" and "return RXLEN" (spec/41_host_commands.md R91, R92). -/
def Obligations.ReadBackEffects : Prop :=
  (∀ c : Config, decode c (.cmd [0x04#8]) = .instr .geterr ∧ decode c (.cmd [0x05#8]) = .instr .getrxlen) ∧
  ∀ s : State,
    exec .geterr s = .next { s with results := s.results ++ [s.err] } ∧
    exec .getrxlen s = .next { s with results := s.results ++ [s.rxlen] }

/-- GETRXBYTE (spec/41_host_commands.md R93). -/
def Obligations.GetrxbyteEffect : Prop :=
  (∀ (c : Config) (i : Byte), decode c (.cmd [0x06#8, i]) = .instr (.getrxbyte i)) ∧
  ∀ (s : State) (i : Byte),
    (i.toNat < s.cfg.rxMaxLen →
      exec (.getrxbyte i) s = .next { s with results := s.results ++ [s.rxbuf.read i.toNat] }) ∧
    (s.cfg.rxMaxLen ≤ i.toNat → exec (.getrxbyte i) s = .refused (.rxIndexOutOfRange i))

/-- TooLong, the first test, whatever the mode (spec/60_exceptions.md R132). -/
def Obligations.TooLongRejections : Prop :=
  ∀ s : State,
    (∀ rs data, s.cfg.txMaxLen < data.length →
      exec (.transmit rs data) s = .next { s with results := s.results ++ [0x01#8] }) ∧
    (∀ rs addr n, s.cfg.rxMaxLen < n.toNat →
      exec (.read rs addr n) s = .next { s with results := s.results ++ [0x01#8] })

/-- NotReady, the second test, and the commands that never raise it (spec/60_exceptions.md R133). That INIT's
meaning answers 0x00 in these three modes, where a step refuses it (spec/41_host_commands.md R86,
spec/70_reset_and_hazards.md R169), is the model's choice (log 7). -/
def Obligations.NotReadyRejections : Prop :=
  ∀ s : State, Transient s →
    (∀ rs data, data.length ≤ s.cfg.txMaxLen →
      exec (.transmit rs data) s = .next { s with results := s.results ++ [0x02#8] }) ∧
    (∀ rs addr n, n.toNat ≤ s.cfg.rxMaxLen →
      exec (.read rs addr n) s = .next { s with results := s.results ++ [0x02#8] }) ∧
    (∃ t, exec .init s = .next t ∧ t.results = s.results ++ [0x00#8]) ∧
    (∃ t, exec .isready s = .next t ∧ t.results = s.results ++ [0x00#8]) ∧
    (∃ t, exec .geterr s = .next t ∧ t.results = s.results ++ [s.err]) ∧
    (∃ t, exec .getrxlen s = .next t ∧ t.results = s.results ++ [s.rxlen]) ∧
    (∀ i : Byte, i.toNat < s.cfg.rxMaxLen →
      ∃ t, exec (.getrxbyte i) s = .next t ∧ t.results = s.results ++ [s.rxbuf.read i.toNat])

/-- TRANSMIT (spec/41_host_commands.md R88): TooLong, NotReady, arming from `Ready` and from `RepeatedStartSent`. -/
def Obligations.TransmitEffect : Prop :=
  (∀ (c : Config) (rs : Bool) (data : List Byte), data.length ≤ 255 →
    decode c (.cmd (0x02#8 :: (if rs then 1#8 else 0#8) :: BitVec.ofNat 8 data.length :: data)) =
      .instr (.transmit rs data)) ∧
  ∀ (s : State) (rs : Bool) (data : List Byte), s.txbuf.wf → 1 ≤ s.cfg.txMaxLen →
    (s.cfg.txMaxLen < data.length →
      exec (.transmit rs data) s = .next { s with results := s.results ++ [0x01#8] }) ∧
    (data.length ≤ s.cfg.txMaxLen → Transient s →
      exec (.transmit rs data) s = .next { s with results := s.results ++ [0x02#8] }) ∧
    (data.length ≤ s.cfg.txMaxLen → s.mode = .ready →
      ∃ m, CopiedIn s.txbuf m data ∧
        exec (.transmit rs data) s = .next { s with
          rs := rs, txbuf := m, txidx := 0#8, txlen := BitVec.ofNat 8 data.length, mode := .initializing,
          cr := cwStart, evf := false, trace := s.trace ++ [.cr cwStart], results := s.results ++ [0x00#8] }) ∧
    (data.length ≤ s.cfg.txMaxLen → s.mode = .repeatedStartSent →
      ∃ m, CopiedIn s.txbuf m data ∧
        exec (.transmit rs data) s = .next { s with
          rs := rs, txbuf := m, txidx := 1#8, txlen := BitVec.ofNat 8 data.length, mode := .initializing,
          dr := m.read 0, cr := cwXmit, evf := false, trace := s.trace ++ [.dr (m.read 0), .cr cwXmit],
          results := s.results ++ [0x00#8] })

/-- READ (spec/41_host_commands.md R90), with the address frame of spec/30_encoding.md R62. -/
def Obligations.ReadEffect : Prop :=
  (∀ (c : Config) (rs : Bool) (addr : BitVec 7) (n : Byte),
    decode c (.cmd [0x03#8, if rs then 1#8 else 0#8, addr.setWidth 8, n]) = .instr (.read rs addr n)) ∧
  ∀ (s : State) (rs : Bool) (addr : BitVec 7) (n : Byte), s.txbuf.wf → 1 ≤ s.cfg.txMaxLen →
    (s.cfg.rxMaxLen < n.toNat →
      exec (.read rs addr n) s = .next { s with results := s.results ++ [0x01#8] }) ∧
    (n.toNat ≤ s.cfg.rxMaxLen → Transient s →
      exec (.read rs addr n) s = .next { s with results := s.results ++ [0x02#8] }) ∧
    (n.toNat ≤ s.cfg.rxMaxLen → s.mode = .ready →
      ∃ m, StoredAt s.txbuf m 0 ((addr.setWidth 8 <<< 1) ||| 0x01#8) ∧
        exec (.read rs addr n) s = .next { s with
          rxidx := 0#8, rxlen := n, rs := rs, txbuf := m, txidx := 0#8, txlen := 1#8, mode := .initializing,
          cr := cwStart, evf := false, trace := s.trace ++ [.cr cwStart], results := s.results ++ [0x00#8] }) ∧
    (n.toNat ≤ s.cfg.rxMaxLen → s.mode = .repeatedStartSent →
      ∃ m, StoredAt s.txbuf m 0 ((addr.setWidth 8 <<< 1) ||| 0x01#8) ∧
        exec (.read rs addr n) s = .next { s with
          rxidx := 0#8, rxlen := n, rs := rs, txbuf := m, txidx := 1#8, txlen := 1#8, mode := .initializing,
          dr := (addr.setWidth 8 <<< 1) ||| 0x01#8, cr := cwXmit, evf := false,
          trace := s.trace ++ [.dr ((addr.setWidth 8 <<< 1) ||| 0x01#8), .cr cwXmit],
          results := s.results ++ [0x00#8] })

/-! ### Events -/

/-- S_START, S_SLAW_ACK, S_TXD_ACK (spec/42_event_fsm.md R97, R101, R102, R103). In this and the next six statements, what
the delivery itself latches in SR, DR and EVF is the model's reading (log 10). -/
def Obligations.TransmitEventEffects : Prop :=
  ∀ (s : State) (sr : Byte),
    TxRule (exec (.evtStart sr) s) s sr s.mode ∧
    TxRule (exec (.evtSlawAck sr) s) s sr .masterTransmitter ∧
    TxRule (exec (.evtTxdAck sr) s) s sr s.mode

/-- S_SLAR_ACK (spec/42_event_fsm.md R104), with RXANSWER's comparison on integers (R99). -/
def Obligations.SlarAckEffect : Prop :=
  ∀ (s : State) (sr : Byte),
    ((s.rxidx.toNat : Int) < (s.rxlen.toNat : Int) - 1 →
      exec (.evtSlarAck sr) s = .next { s with
        mode := .masterReceiver, sr := sr, cr := cwAck, evf := false, trace := s.trace ++ [.cr cwAck] }) ∧
    ((s.rxlen.toNat : Int) - 1 ≤ (s.rxidx.toNat : Int) →
      exec (.evtSlarAck sr) s = .next { s with
        mode := .masterReceiver, sr := sr, cr := cwNack, evf := false, trace := s.trace ++ [.cr cwNack] })

/-- S_RXD_ACK (spec/42_event_fsm.md R105, R98, R99): the store, then the answer on the incremented `RXIDX`; no other byte
of `RXBUF` changes. -/
def Obligations.RxdAckEffect : Prop :=
  ∀ (s : State) (sr dr : Byte), s.rxbuf.wf → s.cfg.rxMaxLen ≤ 255 → s.rxidx.toNat < s.cfg.rxMaxLen →
    ∃ m, StoredAt s.rxbuf m s.rxidx.toNat dr ∧
      ((s.rxidx.toNat : Int) + 1 < (s.rxlen.toNat : Int) - 1 →
        exec (.evtRxdAck sr dr) s = .next { s with
          rxbuf := m, rxidx := s.rxidx + 1#8, sr := sr, dr := dr, cr := cwAck, evf := false,
          trace := s.trace ++ [.cr cwAck] }) ∧
      ((s.rxlen.toNat : Int) - 1 ≤ (s.rxidx.toNat : Int) + 1 →
        exec (.evtRxdAck sr dr) s = .next { s with
          rxbuf := m, rxidx := s.rxidx + 1#8, sr := sr, dr := dr, cr := cwNack, evf := false,
          trace := s.trace ++ [.cr cwNack] })

/-- S_RXD_NACK (spec/42_event_fsm.md R106): the store, then the end of the transfer with `ERR` cleared on both
branches. -/
def Obligations.RxdNackEffect : Prop :=
  ∀ (s : State) (sr dr : Byte), s.rxbuf.wf → s.rxidx.toNat < s.cfg.rxMaxLen →
    ∃ m, StoredAt s.rxbuf m s.rxidx.toNat dr ∧
      (s.rs = true →
        exec (.evtRxdNack sr dr) s = .next { s with
          rxbuf := m, rxidx := s.rxidx + 1#8, err := 0xFF#8, sr := sr, dr := dr, cr := cwStart, evf := false,
          trace := s.trace ++ [.cr cwStart] }) ∧
      (s.rs = false →
        exec (.evtRxdNack sr dr) s = .next { s with
          rxbuf := m, rxidx := s.rxidx + 1#8, mode := .ready, err := 0xFF#8, sr := sr, dr := dr, cr := cwStop,
          evf := false, trace := s.trace ++ [.cr cwStop] })

/-- The four failures that end a transfer (spec/42_event_fsm.md R107 to R110). -/
def Obligations.FailureEventEffects : Prop :=
  ∀ (s : State) (sr : Byte),
    FailRule (exec (.evtSlarNack sr) s) s sr ∧ FailRule (exec (.evtSlawNack sr) s) s sr ∧
    FailRule (exec (.evtTxdNack sr) s) s sr ∧ FailRule (exec (.evtArbLost sr) s) s sr

/-- S_RSTART (spec/42_event_fsm.md R111). -/
def Obligations.RstartEffect : Prop :=
  ∀ (s : State) (sr : Byte),
    exec (.evtRstart sr) s = .next { s with mode := .repeatedStartSent, sr := sr, evf := true }

/-- S_BUSERR (spec/42_event_fsm.md R112). -/
def Obligations.BuserrEffect : Prop :=
  ∀ (s : State) (sr : Byte),
    exec (.evtBuserr sr) s = .next { s with
      err := sr &&& s.cfg.statusMask, mode := .ready, sr := sr, cr := cwStop, evf := false,
      trace := s.trace ++ [.cr cwStop] }

/-- S_NOINFO and unlisted statuses (spec/42_event_fsm.md R113, R114). -/
def Obligations.NoActionEventEffects : Prop :=
  ∀ (s : State) (sr : Byte),
    exec (.evtNoinfo sr) s = .next { s with sr := sr, evf := true } ∧
    exec (.evtUnlisted sr) s = .next { s with sr := sr, evf := true }

/-! ### Primitives -/

/-- The five primitives and INIT's control word: the writes, the default bytes, and nothing else
(spec/40_primitives.md R78 to R83, spec/30_encoding.md R71). A step runs one only where a context is under way (R78,
log 9). -/
def Obligations.PrimitiveEffects : Prop :=
  (∀ s : State,
    exec .sendStart s = .next { s with
      cr := ⟨true, true, true, false, false, true⟩, evf := false,
      trace := s.trace ++ [.cr ⟨true, true, true, false, false, true⟩] } ∧
    exec .sendStop s = .next { s with
      cr := ⟨true, true, false, true, false, true⟩, evf := false,
      trace := s.trace ++ [.cr ⟨true, true, false, true, false, true⟩] } ∧
    (∀ b, exec (.sendTransmit b) s = .next { s with
      dr := b, cr := ⟨true, true, false, false, false, true⟩, evf := false,
      trace := s.trace ++ [.dr b, .cr ⟨true, true, false, false, false, true⟩] }) ∧
    exec .sendAck s = .next { s with
      cr := ⟨true, true, false, false, true, true⟩, evf := false,
      trace := s.trace ++ [.cr ⟨true, true, false, false, true, true⟩] } ∧
    exec .sendNack s = .next { s with
      cr := ⟨true, true, false, false, false, true⟩, evf := false,
      trace := s.trace ++ [.cr ⟨true, true, false, false, false, true⟩] } ∧
    exec .initCw s = .next { s with
      cr := ⟨true, true, false, false, false, false⟩,
      trace := s.trace ++ [.cr ⟨true, true, false, false, false, false⟩] }) ∧
  packControl CrLayout.default ⟨true, true, true, false, false, true⟩ = 0xA5#8 ∧
  packControl CrLayout.default ⟨true, true, false, true, false, true⟩ = 0x95#8 ∧
  packControl CrLayout.default ⟨true, true, false, false, false, true⟩ = 0x85#8 ∧
  packControl CrLayout.default ⟨true, true, false, false, true, true⟩ = 0xC5#8 ∧
  packControl CrLayout.default ⟨true, true, false, false, false, false⟩ = 0x05#8

/-! ### Whole-machine rules -/

/-- The invariant of spec/10_state.md R21, R23, R25, R27 and the canonical buffers: every step keeps it. -/
def Obligations.StepKeepsTheInvariant : Prop :=
  ∀ s t : State, s.Inv → step s = .next t → t.Inv

/-- It holds after reset, whatever the parameters. -/
def Obligations.InvariantHoldsAtReset : Prop :=
  (∀ c : Config, c.Wf → (State.resetWith c).Inv) ∧ State.reset.Inv

/-- The block's only fault, and exactly when it is raised (spec/60_exceptions.md R138, spec/30_encoding.md R77): when a
receive status arrives, which it does between transactions, with `RXIDX` out of range. -/
def Obligations.OnlyReceiveStoresFault : Prop :=
  ∀ s : State, s.Inv →
    ((∃ f, step s = .fault f) ↔
      s.cfg.rxMaxLen ≤ s.rxidx.toNat ∧ s.context = none ∧
      ∃ p q sr dr, s.inputs = p :: q ∧
        (decode s.cfg p = .instr (.evtRxdAck sr dr) ∨ decode s.cfg p = .instr (.evtRxdNack sr dr))) ∧
    (∀ f, step s = .fault f → f = .rxOverrun s.rxidx.toNat)

/-- What `ERR` can hold (spec/10_state.md R17): every step keeps it, and it holds after reset. -/
def Obligations.ErrHoldsOnlyItsDomain : Prop :=
  (∀ s t : State, s.ErrLegal → step s = .next t → t.ErrLegal) ∧
  (∀ c : Config, (State.resetWith c).ErrLegal)

/-- Every write of `ERR` (spec/42_event_fsm.md R118). -/
def Obligations.CompleteListOfErrWrites : Prop :=
  ∀ (i : Instr) (s t : State), exec i s = .next t → t.err = errAfter s i

/-- The next-mode function of the events (spec/42_event_fsm.md R115). -/
def Obligations.NextModeOfEveryEvent : Prop :=
  ∀ (i : Instr) (s : State), IsEvent i →
    (∀ t, exec i s = .next t → t.mode = modeAfterEvent s i) ∧
    (∀ sr dr, i = .evtRxdAck sr dr ∨ i = .evtRxdNack sr dr → s.cfg.rxMaxLen ≤ s.rxidx.toNat →
      exec i s = .fault (.rxOverrun s.rxidx.toNat))

/-- Which transaction can write which mode (spec/42_event_fsm.md R116). -/
def Obligations.OnlyWritersOfEachMode : Prop :=
  ∀ (i : Instr) (s t : State), exec i s = .next t → t.mode ≠ s.mode →
    (t.mode = .initializing → (∃ rs data, i = .transmit rs data) ∨ ∃ rs addr n, i = .read rs addr n) ∧
    (t.mode = .masterTransmitter → ∃ sr, i = .evtSlawAck sr) ∧
    (t.mode = .masterReceiver → ∃ sr, i = .evtSlarAck sr) ∧
    (t.mode = .repeatedStartSent → ∃ sr, i = .evtRstart sr) ∧
    (t.mode = .ready → i = .init ∨ i = .reset ∨ (IsEvent i ∧ t.cr = cwStop ∧
      ((∃ sr, i = .evtBuserr sr) ∨ s.rs = false)))

/-- Every write of `RS` (spec/10_state.md R18). -/
def Obligations.CompleteListOfRsWrites : Prop :=
  ∀ (i : Instr) (s t : State), 1 ≤ s.cfg.txMaxLen → exec i s = .next t → t.rs = rsAfter s i

/-- Who writes the buffers and their lengths (spec/20_memory.md R40, R41; spec/10_state.md R21, R25): everything else
leaves every byte of them. -/
def Obligations.OnlyWritersOfTheBuffers : Prop :=
  ∀ (i : Instr) (s t : State), exec i s = .next t → i ≠ .reset →
    ((∀ rs data, i ≠ .transmit rs data) → (∀ rs addr n, i ≠ .read rs addr n) →
      t.txbuf = s.txbuf ∧ t.txlen = s.txlen) ∧
    ((∀ sr dr, i ≠ .evtRxdAck sr dr) → (∀ sr dr, i ≠ .evtRxdNack sr dr) → t.rxbuf = s.rxbuf) ∧
    ((∀ rs addr n, i ≠ .read rs addr n) → t.rxlen = s.rxlen)

/-- The complete list of the writes a transaction makes, in order (spec/40_primitives.md R84; INIT's are
spec/41_host_commands.md R86's and spec/30_encoding.md R71's): at most one of them is a primitive, a transaction that
issues none leaves EVF as it was, and a receive store out of range is a fault. The rows of a primitive and of INIT_CW,
which R84 lists at their issue sites only, are the model's own (log 9), and that EVF is set when an event issues none
rests on the model's reading of its delivery (log 10; spec/10_state.md R33, spec/60_exceptions.md R144). -/
def Obligations.CompleteListOfPeripheralWrites : Prop :=
  (∀ (i : Instr) (s t : State), s.Inv → i ≠ .reset → exec i s = .next t →
    t.trace = s.trace ++ issued s i ∧
    ((issued s i).filter isPrimitive).length ≤ 1 ∧
    ((∀ w ∈ issued s i, isPrimitive w = false) → (IsEvent i → t.evf = true) ∧ (¬ IsEvent i → t.evf = s.evf))) ∧
  (∀ (s : State) (sr dr : Byte), s.cfg.rxMaxLen ≤ s.rxidx.toNat →
    exec (.evtRxdAck sr dr) s = .fault (.rxOverrun s.rxidx.toNat) ∧
    exec (.evtRxdNack sr dr) s = .fault (.rxOverrun s.rxidx.toNat))

/-- EVF after an event: set exactly when the rule issued no primitive (spec/60_exceptions.md R144, spec/10_state.md
R33). -/
def Obligations.EventFlagAfterEvents : Prop :=
  ∀ (i : Instr) (s t : State), IsEvent i → exec i s = .next t →
    (t.evf = true ↔ t.trace = s.trace) ∧
    (t.evf = true ↔ (∃ sr, i = .evtRstart sr) ∨ (∃ sr, i = .evtNoinfo sr) ∨ ∃ sr, i = .evtUnlisted sr)

/-- From the first INIT or primitive on the interrupt source stays enabled (spec/60_exceptions.md R140). That INIT's
meaning completes in the modes other than `Ready` too is the model's choice (log 7). -/
def Obligations.InterruptStaysEnabled : Prop :=
  (∀ s t : State, s.enabled = true → s.inputs.head? ≠ some .reset → step s = .next t → t.enabled = true) ∧
  (∀ s : State, ∃ t, exec .init s = .next t ∧ t.enabled = true)

/-- In a transient mode no command moves the block: the hang is kept. spec/70_reset_and_hazards.md R163 names INIT and
reset as the only other transactions that leave such a mode, both outside the contract: INIT's meaning does leave it, and
a step refuses INIT there (R169) and takes a reset only as the first transaction of a run (R155). -/
def Obligations.TransientModeOnlyLeftByEvents : Prop :=
  (∀ (s t : State), Transient s → step s = .next t → t.mode ≠ s.mode →
    ∃ p q i, s.inputs = p :: q ∧ decode s.cfg p = .instr i ∧ (IsEvent i ∨ (i = .reset ∧ s.started = false))) ∧
  (∀ (i : Instr) (s t : State), Transient s → exec i s = .next t → t.mode ≠ s.mode →
    IsEvent i ∨ i = .init ∨ i = .reset)

/-- Every control word in the trace is one of the six (spec/30_encoding.md R71, R72), and CR holds one of them, or none
yet: every step keeps it. -/
def Obligations.TraceHoldsOnlyTheSixControlWords : Prop :=
  ∀ s t : State, TraceLegal s → s.cr ∈ cwOff :: legalControlWords → step s = .next t →
    TraceLegal t ∧ t.cr ∈ cwOff :: legalControlWords

/-- The parameters, the transactions still to come, whether the run has started (log 25), whether INIT has run (log 26;
INIT and RESET apart) and, RESET apart, the context are untouched by every instruction, and a command gives one result
byte, anything else none (spec/10_state.md R37, spec/30_encoding.md R60, spec/60_exceptions.md R147). That RESET keeps the
results already given is the model's choice (log 20). -/
def Obligations.ParametersInputsAndResults : Prop :=
  ∀ (i : Instr) (s t : State), exec i s = .next t →
    t.cfg = s.cfg ∧ t.inputs = s.inputs ∧ t.started = s.started ∧ (i ≠ .reset → t.context = s.context) ∧
    (i ≠ .init → i ≠ .reset → t.initialised = s.initialised) ∧
    ∃ r, t.results = s.results ++ r ∧ r.length = resultCount i

/-- The block reads neither CR nor BR nor EVF, and DR and SR only as the event delivers them (spec/10_state.md R33,
spec/20_memory.md R42): from two states that differ only there and in the trace, the block goes on alike. -/
def Obligations.BlockIgnoresThePeripheralsState : Prop :=
  ∀ (i : Instr) (s t : State) (cr : ControlWord) (dr sr : Byte) (br : Nat) (evf : Bool) (tr : List PeriphWrite),
    exec i s = .next t →
      ∃ u, exec i { s with cr := cr, dr := dr, sr := sr, br := br, evf := evf, trace := tr } = .next u ∧
        SameOwn t u ∧ u.results = t.results ∧ u.trace.drop tr.length = t.trace.drop s.trace.length

/-- `MODE` is never a guard of an event (spec/42_event_fsm.md R96): from another mode the event does the same but for
the mode it leaves. -/
def Obligations.ModeIsNoGuardOfEvents : Prop :=
  ∀ (i : Instr) (s t : State) (m : Mode), IsEvent i → exec i s = .next t →
    ∃ u, exec i { s with mode := m } = .next u ∧ { u with mode := t.mode } = t

/-- Under a peripheral that follows the bus protocol and a host that starts reads with READ no receive store is out of
range (spec/43_peripheral_contract.md R129): a transaction that keeps R129's premises is no fault, and what bounds
`RXIDX` holds after it. That a data byte which S_START sends after a lost arbitration (spec/70_reset_and_hazards.md R168)
is an address byte in the sense of R129 is read from R123 (log 21); that a reset leaves the peripheral idle is the
model's choice (log 24). -/
def Obligations.NoOverrunUnderTheContract : Prop :=
  ∀ (b : Bus) (s : State) (p : Packet) (q : List Packet) (i : Instr),
    RxSafe b s → s.inputs = p :: q → decode s.cfg p = .instr i → contractKept b s i = true →
      (∀ f, step s ≠ .fault f) ∧ (∀ t, step s = .next t → RxSafe (b.after i s t) t)

/-- The contract's invariant holds when a run starts, and so does the bound without a word on resumed bytes. -/
def Obligations.ContractHoldsAtReset : Prop :=
  ∀ c : Config, c.Wf → RxSafe Bus.idle (State.resetWith c) ∧ RxRoom Bus.idle (State.resetWith c)

/-- A write every slave acknowledges (spec/43_peripheral_contract.md R130): one start, each byte of the frame staged in
order, one stop or repeated start, and `TXIDX = TXLEN = L`. -/
def Obligations.AcknowledgedWriteSendsEveryByte : Prop :=
  ∀ (s : State) (rs : Bool) (data : List Byte),
    s.Inv → s.context = none → s.initialised = true → s.mode = .ready →
    1 ≤ data.length → data.length ≤ s.cfg.txMaxLen →
    s.inputs = encode s.cfg (.transmit rs data) :: eventOf s.cfg .start 0#8 :: eventOf s.cfg .slawAck 0#8 ::
      (List.replicate (data.length - 1) (eventOf s.cfg .txdAck 0#8) ++
        if rs then [eventOf s.cfg .rstart 0#8] else []) →
    ∃ t, Host.Core.run core (data.length + if rs then 3 else 2) s = .next t ∧
      t.inputs = [] ∧ t.mode = (if rs then .repeatedStartSent else .ready) ∧ t.err = 0xFF#8 ∧
      t.txidx = t.txlen ∧ t.txlen.toNat = data.length ∧ t.results = s.results ++ [0x00#8] ∧
      t.trace = s.trace ++ [.cr cwStart] ++ data.flatMap (fun b => [.dr b, .cr cwXmit]) ++
        [.cr (if rs then cwStart else cwStop)]

/-- A read of `n >= 1` bytes that completes (spec/42_event_fsm.md R99, spec/20_memory.md R44): `n - 1` SEND_ACK, then one
SEND_NACK, and the `n` bytes in `RXBUF` in order. -/
def Obligations.CompletedReadStoresEveryByte : Prop :=
  ∀ (s : State) (rs : Bool) (addr : BitVec 7) (body : List Byte) (last : Byte),
    s.Inv → s.context = none → s.initialised = true → s.mode = .ready →
    body.length + 1 ≤ s.cfg.rxMaxLen →
    s.inputs = encode s.cfg (.read rs addr (BitVec.ofNat 8 (body.length + 1))) :: eventOf s.cfg .start 0#8 ::
      eventOf s.cfg .slarAck 0#8 :: (body.map (eventOf s.cfg .rxdAck) ++ eventOf s.cfg .rxdNack last ::
        if rs then [eventOf s.cfg .rstart 0#8] else []) →
    ∃ t, Host.Core.run core (body.length + if rs then 5 else 4) s = .next t ∧
      t.inputs = [] ∧ t.mode = (if rs then .repeatedStartSent else .ready) ∧ t.err = 0xFF#8 ∧
      t.rxidx.toNat = body.length + 1 ∧ t.rxlen = t.rxidx ∧
      (∀ k, k < body.length + 1 → t.rxbuf.read k = (body ++ [last]).getD k 0#8) ∧
      t.trace = s.trace ++ [.cr cwStart, .dr ((addr.setWidth 8 <<< 1) ||| 0x01#8), .cr cwXmit] ++
        List.replicate body.length (.cr cwAck) ++ [.cr cwNack, .cr (if rs then cwStart else cwStop)]

/-- A primitive is never run on its own (spec/40_primitives.md R78): between transactions the step refuses one, every step
that takes a packet leaves the context (spec/60_exceptions.md R147), and so no run that starts between transactions, as
one after reset does, takes a primitive from outside. That a presented primitive is refused is the model's deduction
(log 9), and that a step which takes a packet, a primitive inside a context included, leaves the context is the model's
choice (log 9). -/
def Obligations.PrimitivesNeverRunAlone : Prop :=
  (∀ (s : State) (b : Option Byte) (w : Byte) (q : List Packet),
    s.context = none → s.inputs = .prim b w :: q → step s = .refused .primitiveAlone) ∧
  (∀ s t : State, s.inputs ≠ [] → step s = .next t → t.context = none) ∧
  (∀ c : Config, (State.resetWith c).context = none) ∧
  (∀ (k : Nat) (s t : State), s.context = none → Host.Core.run core k s = .next t →
    t.context = none ∧ ∃ taken, s.inputs = taken ++ t.inputs ∧ ∀ p ∈ taken, ∀ b w, p ≠ .prim b w)

/-- Over a whole run: as long as every transaction keeps the premises of spec/43_peripheral_contract.md R129, address
bytes being what R123 calls so (log 21) and a reset leaving the peripheral idle (log 24), no step is a fault. -/
def Obligations.NoRunUnderTheContractFaults : Prop :=
  ∀ (k : Nat) (b : Bus) (s : State), RxSafe b s → RunKeeps (fun b s i => contractKept b s i = true) k b s →
    ∀ f, Host.Core.run core k s ≠ .fault f

/-- The run of spec/70_reset_and_hazards.md R168 that must be preserved: arbitration is lost with `RS = 1`, `RXBUF` full
and a next data byte whose bit 0 is 1; that byte goes out as a read address, and the slave's byte has no room. No
TRANSMIT begins with a read address in it, and the peripheral is conformant; it is spec/43_peripheral_contract.md R129's
premise on reads that it breaks, the byte being an address byte by R123 (log 21). -/
def Obligations.ResumedReadOverrunsAFullBuffer : Prop :=
  ∀ (b : Bus) (s : State) (x dr : Byte), RxRoom b s → s.context = none → s.enabled = true → b.busy = .byte x →
    s.rs = true → s.txidx.toNat < s.txlen.toNat → (s.txbuf.read s.txidx.toNat).getLsbD 0 = true →
    s.rxidx.toNat = s.cfg.rxMaxLen →
    s.inputs = [eventOf s.cfg .arbLost 0#8, eventOf s.cfg .start 0#8, eventOf s.cfg .slarAck 0#8,
      eventOf s.cfg .rxdNack dr] →
    RunKeeps (fun b s i => frameContractKept b s i = true) 4 b s ∧
    (0 < s.txidx.toNat → ¬ RunKeeps (fun b s i => contractKept b s i = true) 2 b s) ∧
    Host.Core.run core 4 s = .fault (.rxOverrun s.cfg.rxMaxLen)

/-- Where only a TRANSMIT that begins with a read address is ruled out (spec/70_reset_and_hazards.md R166), a transaction
is no fault, and there is room for the reads S_START begins after it exactly unless it is the loss of arbitration of
spec/70_reset_and_hazards.md R168 before a read address with `RXBUF` full (log 21). That a reset leaves the peripheral
idle is the model's choice (log 24). -/
def Obligations.OnlyTheResumedReadLosesRoom : Prop :=
  ∀ (b : Bus) (s : State) (p : Packet) (q : List Packet) (i : Instr),
    RxRoom b s → s.inputs = p :: q → decode s.cfg p = .instr i → frameContractKept b s i = true →
      (∀ f, step s ≠ .fault f) ∧
      (∀ t, step s = .next t → (RxRoom (b.after i s t) t ↔ ¬ ResumesAsReadWhenFull s i))

/-- The same over a whole run (log 21, log 24): as long as no TRANSMIT begins with a read address and no arbitration is
lost as in spec/70_reset_and_hazards.md R168 before a read address with `RXBUF` full, no step is a fault. -/
def Obligations.NoRunWithoutTheResumedReadFaults : Prop :=
  ∀ (k : Nat) (b : Bus) (s : State), RxRoom b s →
    RunKeeps (fun b s i => frameContractKept b s i = true ∧ ¬ ResumesAsReadWhenFull s i) k b s →
      ∀ f, Host.Core.run core k s ≠ .fault f

/-- A reset is the first transaction of a run or none (spec/70_reset_and_hazards.md R155, log 25): the step refuses one
once the run has started and completes it before, a step that takes a packet starts the run, nothing ends that, a run
begins not started after reset, and so in no run is a reset taken after another transaction. -/
def Obligations.ResetOnlyStartsARun : Prop :=
  (∀ (s : State) (q : List Packet), s.context = none → s.inputs = .reset :: q →
    (s.started = true → step s = .refused .resetInRun) ∧
    (s.started = false → ∃ t, step s = .next t ∧ t.inputs = q ∧ SameOwn t (State.resetWith s.cfg) ∧ t.trace = [])) ∧
  (∀ s t : State, s.inputs ≠ [] ∨ s.started = true → step s = .next t → t.started = true) ∧
  (∀ c : Config, (State.resetWith c).started = false) ∧
  (∀ (k : Nat) (s t : State), Host.Core.run core k s = .next t →
    ∃ taken, s.inputs = taken ++ t.inputs ∧ Packet.reset ∉ taken.tail ∧ (s.started = true → Packet.reset ∉ taken))

/-- The launch premise (spec/41_host_commands.md R86 (b) and (c), spec/70_reset_and_hazards.md R157, R169;
spec/93_implementation_defined.md U7, U8; log 26): a step completes INIT in `Ready` and refuses it in every other mode; a
frame is refused exactly when spec/30_encoding.md R73 says so or it breaks the premise, INIT outside `Ready` or any other
command before INIT; no step forgets, in a run
that has started, that INIT has run; a run begins, after reset, without INIT; and so in every run the first command
taken is INIT. -/
def Obligations.InitFirstAndOnlyWhenIdle : Prop :=
  (∀ (s : State) (q : List Packet), s.context = none → s.inputs = .cmd [0x00#8] :: q →
    (s.mode ≠ .ready → step s = .refused .initNotIdle) ∧
    (s.mode = .ready → ∃ t, step s = .next t ∧ t.inputs = q ∧ t.initialised = true ∧ t.mode = .ready ∧ t.err = 0xFF#8 ∧
      t.rs = false ∧ t.br = s.cfg.brInit ∧ t.cr = cwEnable ∧ t.results = s.results ++ [0x00#8])) ∧
  (∀ (s : State) (f : List Byte) (q : List Packet), s.context = none → s.inputs = .cmd f :: q →
    ((∃ r, step s = .refused r) ↔ Refusable s.cfg f ∨ BreaksLaunchPremise s f) ∧
    (step s = .refused .beforeInit → f ≠ [0x00#8] ∧ s.initialised = false)) ∧
  (∀ s t : State, s.started = true → s.initialised = true → step s = .next t → t.initialised = true) ∧
  (∀ c : Config, (State.resetWith c).initialised = false) ∧
  (∀ (k : Nat) (s t : State), s.initialised = false → Host.Core.run core k s = .next t →
    ∃ taken, s.inputs = taken ++ t.inputs ∧ ∀ p, (taken.filter isCommand).head? = some p → p = .cmd [0x00#8])
end

