-- ==== Sys2Proof/Laws/State.lean ====
section
/-! SUPPORT. One lemma per field per named update of the state, so that no proof unfolds a record update. -/

namespace Sys2Proof.Machine

/-! ### `MODE <- m` -/

@[simp] theorem State.setMode_cfg (s : State) (m : Mode) : (s.setMode m).cfg = s.cfg := rfl
@[simp] theorem State.setMode_mode (s : State) (m : Mode) : (s.setMode m).mode = m := rfl
@[simp] theorem State.setMode_err (s : State) (m : Mode) : (s.setMode m).err = s.err := rfl
@[simp] theorem State.setMode_rs (s : State) (m : Mode) : (s.setMode m).rs = s.rs := rfl
@[simp] theorem State.setMode_txbuf (s : State) (m : Mode) : (s.setMode m).txbuf = s.txbuf := rfl
@[simp] theorem State.setMode_txlen (s : State) (m : Mode) : (s.setMode m).txlen = s.txlen := rfl
@[simp] theorem State.setMode_txidx (s : State) (m : Mode) : (s.setMode m).txidx = s.txidx := rfl
@[simp] theorem State.setMode_rxbuf (s : State) (m : Mode) : (s.setMode m).rxbuf = s.rxbuf := rfl
@[simp] theorem State.setMode_rxlen (s : State) (m : Mode) : (s.setMode m).rxlen = s.rxlen := rfl
@[simp] theorem State.setMode_rxidx (s : State) (m : Mode) : (s.setMode m).rxidx = s.rxidx := rfl
@[simp] theorem State.setMode_cr (s : State) (m : Mode) : (s.setMode m).cr = s.cr := rfl
@[simp] theorem State.setMode_dr (s : State) (m : Mode) : (s.setMode m).dr = s.dr := rfl
@[simp] theorem State.setMode_sr (s : State) (m : Mode) : (s.setMode m).sr = s.sr := rfl
@[simp] theorem State.setMode_br (s : State) (m : Mode) : (s.setMode m).br = s.br := rfl
@[simp] theorem State.setMode_evf (s : State) (m : Mode) : (s.setMode m).evf = s.evf := rfl
@[simp] theorem State.setMode_trace (s : State) (m : Mode) : (s.setMode m).trace = s.trace := rfl
@[simp] theorem State.setMode_results (s : State) (m : Mode) : (s.setMode m).results = s.results := rfl
@[simp] theorem State.setMode_inputs (s : State) (m : Mode) : (s.setMode m).inputs = s.inputs := rfl
@[simp] theorem State.setMode_draws (s : State) (m : Mode) : (s.setMode m).draws = s.draws := rfl
@[simp] theorem State.setMode_context (s : State) (m : Mode) : (s.setMode m).context = s.context := rfl
@[simp] theorem State.setMode_started (s : State) (m : Mode) : (s.setMode m).started = s.started := rfl
@[simp] theorem State.setMode_initialised (s : State) (m : Mode) : (s.setMode m).initialised = s.initialised := rfl

/-! ### `ERR <- e` -/

@[simp] theorem State.setErr_cfg (s : State) (e : Byte) : (s.setErr e).cfg = s.cfg := rfl
@[simp] theorem State.setErr_mode (s : State) (e : Byte) : (s.setErr e).mode = s.mode := rfl
@[simp] theorem State.setErr_err (s : State) (e : Byte) : (s.setErr e).err = e := rfl
@[simp] theorem State.setErr_rs (s : State) (e : Byte) : (s.setErr e).rs = s.rs := rfl
@[simp] theorem State.setErr_txbuf (s : State) (e : Byte) : (s.setErr e).txbuf = s.txbuf := rfl
@[simp] theorem State.setErr_txlen (s : State) (e : Byte) : (s.setErr e).txlen = s.txlen := rfl
@[simp] theorem State.setErr_txidx (s : State) (e : Byte) : (s.setErr e).txidx = s.txidx := rfl
@[simp] theorem State.setErr_rxbuf (s : State) (e : Byte) : (s.setErr e).rxbuf = s.rxbuf := rfl
@[simp] theorem State.setErr_rxlen (s : State) (e : Byte) : (s.setErr e).rxlen = s.rxlen := rfl
@[simp] theorem State.setErr_rxidx (s : State) (e : Byte) : (s.setErr e).rxidx = s.rxidx := rfl
@[simp] theorem State.setErr_cr (s : State) (e : Byte) : (s.setErr e).cr = s.cr := rfl
@[simp] theorem State.setErr_dr (s : State) (e : Byte) : (s.setErr e).dr = s.dr := rfl
@[simp] theorem State.setErr_sr (s : State) (e : Byte) : (s.setErr e).sr = s.sr := rfl
@[simp] theorem State.setErr_br (s : State) (e : Byte) : (s.setErr e).br = s.br := rfl
@[simp] theorem State.setErr_evf (s : State) (e : Byte) : (s.setErr e).evf = s.evf := rfl
@[simp] theorem State.setErr_trace (s : State) (e : Byte) : (s.setErr e).trace = s.trace := rfl
@[simp] theorem State.setErr_results (s : State) (e : Byte) : (s.setErr e).results = s.results := rfl
@[simp] theorem State.setErr_inputs (s : State) (e : Byte) : (s.setErr e).inputs = s.inputs := rfl
@[simp] theorem State.setErr_draws (s : State) (e : Byte) : (s.setErr e).draws = s.draws := rfl
@[simp] theorem State.setErr_context (s : State) (e : Byte) : (s.setErr e).context = s.context := rfl
@[simp] theorem State.setErr_started (s : State) (e : Byte) : (s.setErr e).started = s.started := rfl
@[simp] theorem State.setErr_initialised (s : State) (e : Byte) : (s.setErr e).initialised = s.initialised := rfl

/-! ### `RS <- r` -/

@[simp] theorem State.setRs_cfg (s : State) (r : Bool) : (s.setRs r).cfg = s.cfg := rfl
@[simp] theorem State.setRs_mode (s : State) (r : Bool) : (s.setRs r).mode = s.mode := rfl
@[simp] theorem State.setRs_err (s : State) (r : Bool) : (s.setRs r).err = s.err := rfl
@[simp] theorem State.setRs_rs (s : State) (r : Bool) : (s.setRs r).rs = r := rfl
@[simp] theorem State.setRs_txbuf (s : State) (r : Bool) : (s.setRs r).txbuf = s.txbuf := rfl
@[simp] theorem State.setRs_txlen (s : State) (r : Bool) : (s.setRs r).txlen = s.txlen := rfl
@[simp] theorem State.setRs_txidx (s : State) (r : Bool) : (s.setRs r).txidx = s.txidx := rfl
@[simp] theorem State.setRs_rxbuf (s : State) (r : Bool) : (s.setRs r).rxbuf = s.rxbuf := rfl
@[simp] theorem State.setRs_rxlen (s : State) (r : Bool) : (s.setRs r).rxlen = s.rxlen := rfl
@[simp] theorem State.setRs_rxidx (s : State) (r : Bool) : (s.setRs r).rxidx = s.rxidx := rfl
@[simp] theorem State.setRs_cr (s : State) (r : Bool) : (s.setRs r).cr = s.cr := rfl
@[simp] theorem State.setRs_dr (s : State) (r : Bool) : (s.setRs r).dr = s.dr := rfl
@[simp] theorem State.setRs_sr (s : State) (r : Bool) : (s.setRs r).sr = s.sr := rfl
@[simp] theorem State.setRs_br (s : State) (r : Bool) : (s.setRs r).br = s.br := rfl
@[simp] theorem State.setRs_evf (s : State) (r : Bool) : (s.setRs r).evf = s.evf := rfl
@[simp] theorem State.setRs_trace (s : State) (r : Bool) : (s.setRs r).trace = s.trace := rfl
@[simp] theorem State.setRs_results (s : State) (r : Bool) : (s.setRs r).results = s.results := rfl
@[simp] theorem State.setRs_inputs (s : State) (r : Bool) : (s.setRs r).inputs = s.inputs := rfl
@[simp] theorem State.setRs_draws (s : State) (r : Bool) : (s.setRs r).draws = s.draws := rfl
@[simp] theorem State.setRs_context (s : State) (r : Bool) : (s.setRs r).context = s.context := rfl
@[simp] theorem State.setRs_started (s : State) (r : Bool) : (s.setRs r).started = s.started := rfl
@[simp] theorem State.setRs_initialised (s : State) (r : Bool) : (s.setRs r).initialised = s.initialised := rfl

/-! ### `TXIDX <- v` -/

@[simp] theorem State.setTxIdx_cfg (s : State) (v : Byte) : (s.setTxIdx v).cfg = s.cfg := rfl
@[simp] theorem State.setTxIdx_mode (s : State) (v : Byte) : (s.setTxIdx v).mode = s.mode := rfl
@[simp] theorem State.setTxIdx_err (s : State) (v : Byte) : (s.setTxIdx v).err = s.err := rfl
@[simp] theorem State.setTxIdx_rs (s : State) (v : Byte) : (s.setTxIdx v).rs = s.rs := rfl
@[simp] theorem State.setTxIdx_txbuf (s : State) (v : Byte) : (s.setTxIdx v).txbuf = s.txbuf := rfl
@[simp] theorem State.setTxIdx_txlen (s : State) (v : Byte) : (s.setTxIdx v).txlen = s.txlen := rfl
@[simp] theorem State.setTxIdx_txidx (s : State) (v : Byte) : (s.setTxIdx v).txidx = v := rfl
@[simp] theorem State.setTxIdx_rxbuf (s : State) (v : Byte) : (s.setTxIdx v).rxbuf = s.rxbuf := rfl
@[simp] theorem State.setTxIdx_rxlen (s : State) (v : Byte) : (s.setTxIdx v).rxlen = s.rxlen := rfl
@[simp] theorem State.setTxIdx_rxidx (s : State) (v : Byte) : (s.setTxIdx v).rxidx = s.rxidx := rfl
@[simp] theorem State.setTxIdx_cr (s : State) (v : Byte) : (s.setTxIdx v).cr = s.cr := rfl
@[simp] theorem State.setTxIdx_dr (s : State) (v : Byte) : (s.setTxIdx v).dr = s.dr := rfl
@[simp] theorem State.setTxIdx_sr (s : State) (v : Byte) : (s.setTxIdx v).sr = s.sr := rfl
@[simp] theorem State.setTxIdx_br (s : State) (v : Byte) : (s.setTxIdx v).br = s.br := rfl
@[simp] theorem State.setTxIdx_evf (s : State) (v : Byte) : (s.setTxIdx v).evf = s.evf := rfl
@[simp] theorem State.setTxIdx_trace (s : State) (v : Byte) : (s.setTxIdx v).trace = s.trace := rfl
@[simp] theorem State.setTxIdx_results (s : State) (v : Byte) : (s.setTxIdx v).results = s.results := rfl
@[simp] theorem State.setTxIdx_inputs (s : State) (v : Byte) : (s.setTxIdx v).inputs = s.inputs := rfl
@[simp] theorem State.setTxIdx_draws (s : State) (v : Byte) : (s.setTxIdx v).draws = s.draws := rfl
@[simp] theorem State.setTxIdx_context (s : State) (v : Byte) : (s.setTxIdx v).context = s.context := rfl
@[simp] theorem State.setTxIdx_started (s : State) (v : Byte) : (s.setTxIdx v).started = s.started := rfl
@[simp] theorem State.setTxIdx_initialised (s : State) (v : Byte) : (s.setTxIdx v).initialised = s.initialised := rfl

/-! ### the receive counters -/

@[simp] theorem State.setRx_cfg (s : State) (i n : Byte) : (s.setRx i n).cfg = s.cfg := rfl
@[simp] theorem State.setRx_mode (s : State) (i n : Byte) : (s.setRx i n).mode = s.mode := rfl
@[simp] theorem State.setRx_err (s : State) (i n : Byte) : (s.setRx i n).err = s.err := rfl
@[simp] theorem State.setRx_rs (s : State) (i n : Byte) : (s.setRx i n).rs = s.rs := rfl
@[simp] theorem State.setRx_txbuf (s : State) (i n : Byte) : (s.setRx i n).txbuf = s.txbuf := rfl
@[simp] theorem State.setRx_txlen (s : State) (i n : Byte) : (s.setRx i n).txlen = s.txlen := rfl
@[simp] theorem State.setRx_txidx (s : State) (i n : Byte) : (s.setRx i n).txidx = s.txidx := rfl
@[simp] theorem State.setRx_rxbuf (s : State) (i n : Byte) : (s.setRx i n).rxbuf = s.rxbuf := rfl
@[simp] theorem State.setRx_rxlen (s : State) (i n : Byte) : (s.setRx i n).rxlen = n := rfl
@[simp] theorem State.setRx_rxidx (s : State) (i n : Byte) : (s.setRx i n).rxidx = i := rfl
@[simp] theorem State.setRx_cr (s : State) (i n : Byte) : (s.setRx i n).cr = s.cr := rfl
@[simp] theorem State.setRx_dr (s : State) (i n : Byte) : (s.setRx i n).dr = s.dr := rfl
@[simp] theorem State.setRx_sr (s : State) (i n : Byte) : (s.setRx i n).sr = s.sr := rfl
@[simp] theorem State.setRx_br (s : State) (i n : Byte) : (s.setRx i n).br = s.br := rfl
@[simp] theorem State.setRx_evf (s : State) (i n : Byte) : (s.setRx i n).evf = s.evf := rfl
@[simp] theorem State.setRx_trace (s : State) (i n : Byte) : (s.setRx i n).trace = s.trace := rfl
@[simp] theorem State.setRx_results (s : State) (i n : Byte) : (s.setRx i n).results = s.results := rfl
@[simp] theorem State.setRx_inputs (s : State) (i n : Byte) : (s.setRx i n).inputs = s.inputs := rfl
@[simp] theorem State.setRx_draws (s : State) (i n : Byte) : (s.setRx i n).draws = s.draws := rfl
@[simp] theorem State.setRx_context (s : State) (i n : Byte) : (s.setRx i n).context = s.context := rfl
@[simp] theorem State.setRx_started (s : State) (i n : Byte) : (s.setRx i n).started = s.started := rfl
@[simp] theorem State.setRx_initialised (s : State) (i n : Byte) : (s.setRx i n).initialised = s.initialised := rfl

/-! ### a receive store -/

@[simp] theorem State.putRx_cfg (s : State) : (s.putRx).cfg = s.cfg := rfl
@[simp] theorem State.putRx_mode (s : State) : (s.putRx).mode = s.mode := rfl
@[simp] theorem State.putRx_err (s : State) : (s.putRx).err = s.err := rfl
@[simp] theorem State.putRx_rs (s : State) : (s.putRx).rs = s.rs := rfl
@[simp] theorem State.putRx_txbuf (s : State) : (s.putRx).txbuf = s.txbuf := rfl
@[simp] theorem State.putRx_txlen (s : State) : (s.putRx).txlen = s.txlen := rfl
@[simp] theorem State.putRx_txidx (s : State) : (s.putRx).txidx = s.txidx := rfl
@[simp] theorem State.putRx_rxbuf (s : State) : (s.putRx).rxbuf = Memory.write s.rxbuf s.rxidx.toNat s.dr := rfl
@[simp] theorem State.putRx_rxlen (s : State) : (s.putRx).rxlen = s.rxlen := rfl
@[simp] theorem State.putRx_rxidx (s : State) : (s.putRx).rxidx = s.rxidx + 1#8 := rfl
@[simp] theorem State.putRx_cr (s : State) : (s.putRx).cr = s.cr := rfl
@[simp] theorem State.putRx_dr (s : State) : (s.putRx).dr = s.dr := rfl
@[simp] theorem State.putRx_sr (s : State) : (s.putRx).sr = s.sr := rfl
@[simp] theorem State.putRx_br (s : State) : (s.putRx).br = s.br := rfl
@[simp] theorem State.putRx_evf (s : State) : (s.putRx).evf = s.evf := rfl
@[simp] theorem State.putRx_trace (s : State) : (s.putRx).trace = s.trace := rfl
@[simp] theorem State.putRx_results (s : State) : (s.putRx).results = s.results := rfl
@[simp] theorem State.putRx_inputs (s : State) : (s.putRx).inputs = s.inputs := rfl
@[simp] theorem State.putRx_draws (s : State) : (s.putRx).draws = s.draws := rfl
@[simp] theorem State.putRx_context (s : State) : (s.putRx).context = s.context := rfl
@[simp] theorem State.putRx_started (s : State) : (s.putRx).started = s.started := rfl
@[simp] theorem State.putRx_initialised (s : State) : (s.putRx).initialised = s.initialised := rfl

/-! ### `PeriphWrite(CR, w)` -/

@[simp] theorem State.writeCr_cfg (s : State) (w : ControlWord) : (s.writeCr w).cfg = s.cfg := rfl
@[simp] theorem State.writeCr_mode (s : State) (w : ControlWord) : (s.writeCr w).mode = s.mode := rfl
@[simp] theorem State.writeCr_err (s : State) (w : ControlWord) : (s.writeCr w).err = s.err := rfl
@[simp] theorem State.writeCr_rs (s : State) (w : ControlWord) : (s.writeCr w).rs = s.rs := rfl
@[simp] theorem State.writeCr_txbuf (s : State) (w : ControlWord) : (s.writeCr w).txbuf = s.txbuf := rfl
@[simp] theorem State.writeCr_txlen (s : State) (w : ControlWord) : (s.writeCr w).txlen = s.txlen := rfl
@[simp] theorem State.writeCr_txidx (s : State) (w : ControlWord) : (s.writeCr w).txidx = s.txidx := rfl
@[simp] theorem State.writeCr_rxbuf (s : State) (w : ControlWord) : (s.writeCr w).rxbuf = s.rxbuf := rfl
@[simp] theorem State.writeCr_rxlen (s : State) (w : ControlWord) : (s.writeCr w).rxlen = s.rxlen := rfl
@[simp] theorem State.writeCr_rxidx (s : State) (w : ControlWord) : (s.writeCr w).rxidx = s.rxidx := rfl
@[simp] theorem State.writeCr_cr (s : State) (w : ControlWord) : (s.writeCr w).cr = w := rfl
@[simp] theorem State.writeCr_dr (s : State) (w : ControlWord) : (s.writeCr w).dr = s.dr := rfl
@[simp] theorem State.writeCr_sr (s : State) (w : ControlWord) : (s.writeCr w).sr = s.sr := rfl
@[simp] theorem State.writeCr_br (s : State) (w : ControlWord) : (s.writeCr w).br = s.br := rfl
@[simp] theorem State.writeCr_evf (s : State) (w : ControlWord) : (s.writeCr w).evf = (s.evf && !w.evack) := rfl
@[simp] theorem State.writeCr_trace (s : State) (w : ControlWord) : (s.writeCr w).trace = s.trace ++ [.cr w] := rfl
@[simp] theorem State.writeCr_results (s : State) (w : ControlWord) : (s.writeCr w).results = s.results := rfl
@[simp] theorem State.writeCr_inputs (s : State) (w : ControlWord) : (s.writeCr w).inputs = s.inputs := rfl
@[simp] theorem State.writeCr_draws (s : State) (w : ControlWord) : (s.writeCr w).draws = s.draws := rfl
@[simp] theorem State.writeCr_context (s : State) (w : ControlWord) : (s.writeCr w).context = s.context := rfl
@[simp] theorem State.writeCr_started (s : State) (w : ControlWord) : (s.writeCr w).started = s.started := rfl
@[simp] theorem State.writeCr_initialised (s : State) (w : ControlWord) : (s.writeCr w).initialised = s.initialised := rfl

/-! ### `PeriphWrite(DR, b)` -/

@[simp] theorem State.writeDr_cfg (s : State) (b : Byte) : (s.writeDr b).cfg = s.cfg := rfl
@[simp] theorem State.writeDr_mode (s : State) (b : Byte) : (s.writeDr b).mode = s.mode := rfl
@[simp] theorem State.writeDr_err (s : State) (b : Byte) : (s.writeDr b).err = s.err := rfl
@[simp] theorem State.writeDr_rs (s : State) (b : Byte) : (s.writeDr b).rs = s.rs := rfl
@[simp] theorem State.writeDr_txbuf (s : State) (b : Byte) : (s.writeDr b).txbuf = s.txbuf := rfl
@[simp] theorem State.writeDr_txlen (s : State) (b : Byte) : (s.writeDr b).txlen = s.txlen := rfl
@[simp] theorem State.writeDr_txidx (s : State) (b : Byte) : (s.writeDr b).txidx = s.txidx := rfl
@[simp] theorem State.writeDr_rxbuf (s : State) (b : Byte) : (s.writeDr b).rxbuf = s.rxbuf := rfl
@[simp] theorem State.writeDr_rxlen (s : State) (b : Byte) : (s.writeDr b).rxlen = s.rxlen := rfl
@[simp] theorem State.writeDr_rxidx (s : State) (b : Byte) : (s.writeDr b).rxidx = s.rxidx := rfl
@[simp] theorem State.writeDr_cr (s : State) (b : Byte) : (s.writeDr b).cr = s.cr := rfl
@[simp] theorem State.writeDr_dr (s : State) (b : Byte) : (s.writeDr b).dr = b := rfl
@[simp] theorem State.writeDr_sr (s : State) (b : Byte) : (s.writeDr b).sr = s.sr := rfl
@[simp] theorem State.writeDr_br (s : State) (b : Byte) : (s.writeDr b).br = s.br := rfl
@[simp] theorem State.writeDr_evf (s : State) (b : Byte) : (s.writeDr b).evf = s.evf := rfl
@[simp] theorem State.writeDr_trace (s : State) (b : Byte) : (s.writeDr b).trace = s.trace ++ [.dr b] := rfl
@[simp] theorem State.writeDr_results (s : State) (b : Byte) : (s.writeDr b).results = s.results := rfl
@[simp] theorem State.writeDr_inputs (s : State) (b : Byte) : (s.writeDr b).inputs = s.inputs := rfl
@[simp] theorem State.writeDr_draws (s : State) (b : Byte) : (s.writeDr b).draws = s.draws := rfl
@[simp] theorem State.writeDr_context (s : State) (b : Byte) : (s.writeDr b).context = s.context := rfl
@[simp] theorem State.writeDr_started (s : State) (b : Byte) : (s.writeDr b).started = s.started := rfl
@[simp] theorem State.writeDr_initialised (s : State) (b : Byte) : (s.writeDr b).initialised = s.initialised := rfl

/-! ### `PeriphWrite(BR, v)` -/

@[simp] theorem State.writeBr_cfg (s : State) (v : Nat) : (s.writeBr v).cfg = s.cfg := rfl
@[simp] theorem State.writeBr_mode (s : State) (v : Nat) : (s.writeBr v).mode = s.mode := rfl
@[simp] theorem State.writeBr_err (s : State) (v : Nat) : (s.writeBr v).err = s.err := rfl
@[simp] theorem State.writeBr_rs (s : State) (v : Nat) : (s.writeBr v).rs = s.rs := rfl
@[simp] theorem State.writeBr_txbuf (s : State) (v : Nat) : (s.writeBr v).txbuf = s.txbuf := rfl
@[simp] theorem State.writeBr_txlen (s : State) (v : Nat) : (s.writeBr v).txlen = s.txlen := rfl
@[simp] theorem State.writeBr_txidx (s : State) (v : Nat) : (s.writeBr v).txidx = s.txidx := rfl
@[simp] theorem State.writeBr_rxbuf (s : State) (v : Nat) : (s.writeBr v).rxbuf = s.rxbuf := rfl
@[simp] theorem State.writeBr_rxlen (s : State) (v : Nat) : (s.writeBr v).rxlen = s.rxlen := rfl
@[simp] theorem State.writeBr_rxidx (s : State) (v : Nat) : (s.writeBr v).rxidx = s.rxidx := rfl
@[simp] theorem State.writeBr_cr (s : State) (v : Nat) : (s.writeBr v).cr = s.cr := rfl
@[simp] theorem State.writeBr_dr (s : State) (v : Nat) : (s.writeBr v).dr = s.dr := rfl
@[simp] theorem State.writeBr_sr (s : State) (v : Nat) : (s.writeBr v).sr = s.sr := rfl
@[simp] theorem State.writeBr_br (s : State) (v : Nat) : (s.writeBr v).br = v := rfl
@[simp] theorem State.writeBr_evf (s : State) (v : Nat) : (s.writeBr v).evf = s.evf := rfl
@[simp] theorem State.writeBr_trace (s : State) (v : Nat) : (s.writeBr v).trace = s.trace ++ [.br v] := rfl
@[simp] theorem State.writeBr_results (s : State) (v : Nat) : (s.writeBr v).results = s.results := rfl
@[simp] theorem State.writeBr_inputs (s : State) (v : Nat) : (s.writeBr v).inputs = s.inputs := rfl
@[simp] theorem State.writeBr_draws (s : State) (v : Nat) : (s.writeBr v).draws = s.draws := rfl
@[simp] theorem State.writeBr_context (s : State) (v : Nat) : (s.writeBr v).context = s.context := rfl
@[simp] theorem State.writeBr_started (s : State) (v : Nat) : (s.writeBr v).started = s.started := rfl
@[simp] theorem State.writeBr_initialised (s : State) (v : Nat) : (s.writeBr v).initialised = s.initialised := rfl

/-! ### `return c` -/

@[simp] theorem State.answer_cfg (s : State) (c : Byte) : (s.answer c).cfg = s.cfg := rfl
@[simp] theorem State.answer_mode (s : State) (c : Byte) : (s.answer c).mode = s.mode := rfl
@[simp] theorem State.answer_err (s : State) (c : Byte) : (s.answer c).err = s.err := rfl
@[simp] theorem State.answer_rs (s : State) (c : Byte) : (s.answer c).rs = s.rs := rfl
@[simp] theorem State.answer_txbuf (s : State) (c : Byte) : (s.answer c).txbuf = s.txbuf := rfl
@[simp] theorem State.answer_txlen (s : State) (c : Byte) : (s.answer c).txlen = s.txlen := rfl
@[simp] theorem State.answer_txidx (s : State) (c : Byte) : (s.answer c).txidx = s.txidx := rfl
@[simp] theorem State.answer_rxbuf (s : State) (c : Byte) : (s.answer c).rxbuf = s.rxbuf := rfl
@[simp] theorem State.answer_rxlen (s : State) (c : Byte) : (s.answer c).rxlen = s.rxlen := rfl
@[simp] theorem State.answer_rxidx (s : State) (c : Byte) : (s.answer c).rxidx = s.rxidx := rfl
@[simp] theorem State.answer_cr (s : State) (c : Byte) : (s.answer c).cr = s.cr := rfl
@[simp] theorem State.answer_dr (s : State) (c : Byte) : (s.answer c).dr = s.dr := rfl
@[simp] theorem State.answer_sr (s : State) (c : Byte) : (s.answer c).sr = s.sr := rfl
@[simp] theorem State.answer_br (s : State) (c : Byte) : (s.answer c).br = s.br := rfl
@[simp] theorem State.answer_evf (s : State) (c : Byte) : (s.answer c).evf = s.evf := rfl
@[simp] theorem State.answer_trace (s : State) (c : Byte) : (s.answer c).trace = s.trace := rfl
@[simp] theorem State.answer_results (s : State) (c : Byte) : (s.answer c).results = s.results ++ [c] := rfl
@[simp] theorem State.answer_inputs (s : State) (c : Byte) : (s.answer c).inputs = s.inputs := rfl
@[simp] theorem State.answer_draws (s : State) (c : Byte) : (s.answer c).draws = s.draws := rfl
@[simp] theorem State.answer_context (s : State) (c : Byte) : (s.answer c).context = s.context := rfl
@[simp] theorem State.answer_started (s : State) (c : Byte) : (s.answer c).started = s.started := rfl
@[simp] theorem State.answer_initialised (s : State) (c : Byte) : (s.answer c).initialised = s.initialised := rfl

/-! ### handler entry -/

@[simp] theorem State.enterHandler_cfg (s : State) (sr : Byte) : (s.enterHandler sr).cfg = s.cfg := rfl
@[simp] theorem State.enterHandler_mode (s : State) (sr : Byte) : (s.enterHandler sr).mode = s.mode := rfl
@[simp] theorem State.enterHandler_err (s : State) (sr : Byte) : (s.enterHandler sr).err = s.err := rfl
@[simp] theorem State.enterHandler_rs (s : State) (sr : Byte) : (s.enterHandler sr).rs = s.rs := rfl
@[simp] theorem State.enterHandler_txbuf (s : State) (sr : Byte) : (s.enterHandler sr).txbuf = s.txbuf := rfl
@[simp] theorem State.enterHandler_txlen (s : State) (sr : Byte) : (s.enterHandler sr).txlen = s.txlen := rfl
@[simp] theorem State.enterHandler_txidx (s : State) (sr : Byte) : (s.enterHandler sr).txidx = s.txidx := rfl
@[simp] theorem State.enterHandler_rxbuf (s : State) (sr : Byte) : (s.enterHandler sr).rxbuf = s.rxbuf := rfl
@[simp] theorem State.enterHandler_rxlen (s : State) (sr : Byte) : (s.enterHandler sr).rxlen = s.rxlen := rfl
@[simp] theorem State.enterHandler_rxidx (s : State) (sr : Byte) : (s.enterHandler sr).rxidx = s.rxidx := rfl
@[simp] theorem State.enterHandler_cr (s : State) (sr : Byte) : (s.enterHandler sr).cr = s.cr := rfl
@[simp] theorem State.enterHandler_dr (s : State) (sr : Byte) : (s.enterHandler sr).dr = s.dr := rfl
@[simp] theorem State.enterHandler_sr (s : State) (sr : Byte) : (s.enterHandler sr).sr = sr := rfl
@[simp] theorem State.enterHandler_br (s : State) (sr : Byte) : (s.enterHandler sr).br = s.br := rfl
@[simp] theorem State.enterHandler_evf (s : State) (sr : Byte) : (s.enterHandler sr).evf = true := rfl
@[simp] theorem State.enterHandler_trace (s : State) (sr : Byte) : (s.enterHandler sr).trace = s.trace := rfl
@[simp] theorem State.enterHandler_results (s : State) (sr : Byte) : (s.enterHandler sr).results = s.results := rfl
@[simp] theorem State.enterHandler_inputs (s : State) (sr : Byte) : (s.enterHandler sr).inputs = s.inputs := rfl
@[simp] theorem State.enterHandler_draws (s : State) (sr : Byte) : (s.enterHandler sr).draws = s.draws := rfl
@[simp] theorem State.enterHandler_context (s : State) (sr : Byte) : (s.enterHandler sr).context = s.context := rfl
@[simp] theorem State.enterHandler_started (s : State) (sr : Byte) : (s.enterHandler sr).started = s.started := rfl
@[simp] theorem State.enterHandler_initialised (s : State) (sr : Byte) : (s.enterHandler sr).initialised = s.initialised := rfl

/-! ### handler entry with a received byte -/

@[simp] theorem State.enterHandlerRx_cfg (s : State) (sr dr : Byte) : (s.enterHandlerRx sr dr).cfg = s.cfg := rfl
@[simp] theorem State.enterHandlerRx_mode (s : State) (sr dr : Byte) : (s.enterHandlerRx sr dr).mode = s.mode := rfl
@[simp] theorem State.enterHandlerRx_err (s : State) (sr dr : Byte) : (s.enterHandlerRx sr dr).err = s.err := rfl
@[simp] theorem State.enterHandlerRx_rs (s : State) (sr dr : Byte) : (s.enterHandlerRx sr dr).rs = s.rs := rfl
@[simp] theorem State.enterHandlerRx_txbuf (s : State) (sr dr : Byte) : (s.enterHandlerRx sr dr).txbuf = s.txbuf := rfl
@[simp] theorem State.enterHandlerRx_txlen (s : State) (sr dr : Byte) : (s.enterHandlerRx sr dr).txlen = s.txlen := rfl
@[simp] theorem State.enterHandlerRx_txidx (s : State) (sr dr : Byte) : (s.enterHandlerRx sr dr).txidx = s.txidx := rfl
@[simp] theorem State.enterHandlerRx_rxbuf (s : State) (sr dr : Byte) : (s.enterHandlerRx sr dr).rxbuf = s.rxbuf := rfl
@[simp] theorem State.enterHandlerRx_rxlen (s : State) (sr dr : Byte) : (s.enterHandlerRx sr dr).rxlen = s.rxlen := rfl
@[simp] theorem State.enterHandlerRx_rxidx (s : State) (sr dr : Byte) : (s.enterHandlerRx sr dr).rxidx = s.rxidx := rfl
@[simp] theorem State.enterHandlerRx_cr (s : State) (sr dr : Byte) : (s.enterHandlerRx sr dr).cr = s.cr := rfl
@[simp] theorem State.enterHandlerRx_dr (s : State) (sr dr : Byte) : (s.enterHandlerRx sr dr).dr = dr := rfl
@[simp] theorem State.enterHandlerRx_sr (s : State) (sr dr : Byte) : (s.enterHandlerRx sr dr).sr = sr := rfl
@[simp] theorem State.enterHandlerRx_br (s : State) (sr dr : Byte) : (s.enterHandlerRx sr dr).br = s.br := rfl
@[simp] theorem State.enterHandlerRx_evf (s : State) (sr dr : Byte) : (s.enterHandlerRx sr dr).evf = true := rfl
@[simp] theorem State.enterHandlerRx_trace (s : State) (sr dr : Byte) : (s.enterHandlerRx sr dr).trace = s.trace := rfl
@[simp] theorem State.enterHandlerRx_results (s : State) (sr dr : Byte) : (s.enterHandlerRx sr dr).results = s.results := rfl
@[simp] theorem State.enterHandlerRx_inputs (s : State) (sr dr : Byte) : (s.enterHandlerRx sr dr).inputs = s.inputs := rfl
@[simp] theorem State.enterHandlerRx_draws (s : State) (sr dr : Byte) : (s.enterHandlerRx sr dr).draws = s.draws := rfl
@[simp] theorem State.enterHandlerRx_context (s : State) (sr dr : Byte) : (s.enterHandlerRx sr dr).context = s.context := rfl
@[simp] theorem State.enterHandlerRx_started (s : State) (sr dr : Byte) : (s.enterHandlerRx sr dr).started = s.started := rfl
@[simp] theorem State.enterHandlerRx_initialised (s : State) (sr dr : Byte) : (s.enterHandlerRx sr dr).initialised = s.initialised := rfl

/-! ### the writes of an accepted TRANSMIT -/

@[simp] theorem State.loadTx_cfg (s : State) (rs : Bool) (data : List Byte) : (s.loadTx rs data).cfg = s.cfg := rfl
@[simp] theorem State.loadTx_mode (s : State) (rs : Bool) (data : List Byte) : (s.loadTx rs data).mode = s.mode := rfl
@[simp] theorem State.loadTx_err (s : State) (rs : Bool) (data : List Byte) : (s.loadTx rs data).err = s.err := rfl
@[simp] theorem State.loadTx_rs (s : State) (rs : Bool) (data : List Byte) : (s.loadTx rs data).rs = rs := rfl
@[simp] theorem State.loadTx_txbuf (s : State) (rs : Bool) (data : List Byte) : (s.loadTx rs data).txbuf = Memory.copyIn s.txbuf 0 data := rfl
@[simp] theorem State.loadTx_txlen (s : State) (rs : Bool) (data : List Byte) : (s.loadTx rs data).txlen = BitVec.ofNat 8 data.length := rfl
@[simp] theorem State.loadTx_txidx (s : State) (rs : Bool) (data : List Byte) : (s.loadTx rs data).txidx = 0#8 := rfl
@[simp] theorem State.loadTx_rxbuf (s : State) (rs : Bool) (data : List Byte) : (s.loadTx rs data).rxbuf = s.rxbuf := rfl
@[simp] theorem State.loadTx_rxlen (s : State) (rs : Bool) (data : List Byte) : (s.loadTx rs data).rxlen = s.rxlen := rfl
@[simp] theorem State.loadTx_rxidx (s : State) (rs : Bool) (data : List Byte) : (s.loadTx rs data).rxidx = s.rxidx := rfl
@[simp] theorem State.loadTx_cr (s : State) (rs : Bool) (data : List Byte) : (s.loadTx rs data).cr = s.cr := rfl
@[simp] theorem State.loadTx_dr (s : State) (rs : Bool) (data : List Byte) : (s.loadTx rs data).dr = s.dr := rfl
@[simp] theorem State.loadTx_sr (s : State) (rs : Bool) (data : List Byte) : (s.loadTx rs data).sr = s.sr := rfl
@[simp] theorem State.loadTx_br (s : State) (rs : Bool) (data : List Byte) : (s.loadTx rs data).br = s.br := rfl
@[simp] theorem State.loadTx_evf (s : State) (rs : Bool) (data : List Byte) : (s.loadTx rs data).evf = s.evf := rfl
@[simp] theorem State.loadTx_trace (s : State) (rs : Bool) (data : List Byte) : (s.loadTx rs data).trace = s.trace := rfl
@[simp] theorem State.loadTx_results (s : State) (rs : Bool) (data : List Byte) : (s.loadTx rs data).results = s.results := rfl
@[simp] theorem State.loadTx_inputs (s : State) (rs : Bool) (data : List Byte) : (s.loadTx rs data).inputs = s.inputs := rfl
@[simp] theorem State.loadTx_draws (s : State) (rs : Bool) (data : List Byte) : (s.loadTx rs data).draws = s.draws := rfl
@[simp] theorem State.loadTx_context (s : State) (rs : Bool) (data : List Byte) : (s.loadTx rs data).context = s.context := rfl
@[simp] theorem State.loadTx_started (s : State) (rs : Bool) (data : List Byte) : (s.loadTx rs data).started = s.started := rfl
@[simp] theorem State.loadTx_initialised (s : State) (rs : Bool) (data : List Byte) : (s.loadTx rs data).initialised = s.initialised := rfl

/-! ### SEND_TRANSMIT -/

@[simp] theorem State.issueTransmit_cfg (s : State) (b : Byte) : (s.issueTransmit b).cfg = s.cfg := rfl
@[simp] theorem State.issueTransmit_mode (s : State) (b : Byte) : (s.issueTransmit b).mode = s.mode := rfl
@[simp] theorem State.issueTransmit_err (s : State) (b : Byte) : (s.issueTransmit b).err = s.err := rfl
@[simp] theorem State.issueTransmit_rs (s : State) (b : Byte) : (s.issueTransmit b).rs = s.rs := rfl
@[simp] theorem State.issueTransmit_txbuf (s : State) (b : Byte) : (s.issueTransmit b).txbuf = s.txbuf := rfl
@[simp] theorem State.issueTransmit_txlen (s : State) (b : Byte) : (s.issueTransmit b).txlen = s.txlen := rfl
@[simp] theorem State.issueTransmit_txidx (s : State) (b : Byte) : (s.issueTransmit b).txidx = s.txidx := rfl
@[simp] theorem State.issueTransmit_rxbuf (s : State) (b : Byte) : (s.issueTransmit b).rxbuf = s.rxbuf := rfl
@[simp] theorem State.issueTransmit_rxlen (s : State) (b : Byte) : (s.issueTransmit b).rxlen = s.rxlen := rfl
@[simp] theorem State.issueTransmit_rxidx (s : State) (b : Byte) : (s.issueTransmit b).rxidx = s.rxidx := rfl
@[simp] theorem State.issueTransmit_cr (s : State) (b : Byte) : (s.issueTransmit b).cr = cwXmit := rfl
@[simp] theorem State.issueTransmit_dr (s : State) (b : Byte) : (s.issueTransmit b).dr = b := rfl
@[simp] theorem State.issueTransmit_sr (s : State) (b : Byte) : (s.issueTransmit b).sr = s.sr := rfl
@[simp] theorem State.issueTransmit_br (s : State) (b : Byte) : (s.issueTransmit b).br = s.br := rfl
@[simp] theorem State.issueTransmit_evf (s : State) (b : Byte) : (s.issueTransmit b).evf = false := Bool.and_false s.evf
@[simp] theorem State.issueTransmit_trace (s : State) (b : Byte) : (s.issueTransmit b).trace = s.trace ++ [.dr b] ++ [.cr cwXmit] := rfl
@[simp] theorem State.issueTransmit_results (s : State) (b : Byte) : (s.issueTransmit b).results = s.results := rfl
@[simp] theorem State.issueTransmit_inputs (s : State) (b : Byte) : (s.issueTransmit b).inputs = s.inputs := rfl
@[simp] theorem State.issueTransmit_draws (s : State) (b : Byte) : (s.issueTransmit b).draws = s.draws := rfl
@[simp] theorem State.issueTransmit_context (s : State) (b : Byte) : (s.issueTransmit b).context = s.context := rfl
@[simp] theorem State.issueTransmit_started (s : State) (b : Byte) : (s.issueTransmit b).started = s.started := rfl
@[simp] theorem State.issueTransmit_initialised (s : State) (b : Byte) : (s.issueTransmit b).initialised = s.initialised := rfl

/-! ### SEND_START -/

@[simp] theorem State.issueStart_cfg (s : State) : (s.issueStart).cfg = s.cfg := rfl
@[simp] theorem State.issueStart_mode (s : State) : (s.issueStart).mode = s.mode := rfl
@[simp] theorem State.issueStart_err (s : State) : (s.issueStart).err = s.err := rfl
@[simp] theorem State.issueStart_rs (s : State) : (s.issueStart).rs = s.rs := rfl
@[simp] theorem State.issueStart_txbuf (s : State) : (s.issueStart).txbuf = s.txbuf := rfl
@[simp] theorem State.issueStart_txlen (s : State) : (s.issueStart).txlen = s.txlen := rfl
@[simp] theorem State.issueStart_txidx (s : State) : (s.issueStart).txidx = s.txidx := rfl
@[simp] theorem State.issueStart_rxbuf (s : State) : (s.issueStart).rxbuf = s.rxbuf := rfl
@[simp] theorem State.issueStart_rxlen (s : State) : (s.issueStart).rxlen = s.rxlen := rfl
@[simp] theorem State.issueStart_rxidx (s : State) : (s.issueStart).rxidx = s.rxidx := rfl
@[simp] theorem State.issueStart_cr (s : State) : (s.issueStart).cr = cwStart := rfl
@[simp] theorem State.issueStart_dr (s : State) : (s.issueStart).dr = s.dr := rfl
@[simp] theorem State.issueStart_sr (s : State) : (s.issueStart).sr = s.sr := rfl
@[simp] theorem State.issueStart_br (s : State) : (s.issueStart).br = s.br := rfl
@[simp] theorem State.issueStart_evf (s : State) : (s.issueStart).evf = false := Bool.and_false s.evf
@[simp] theorem State.issueStart_trace (s : State) : (s.issueStart).trace = s.trace ++ [.cr cwStart] := rfl
@[simp] theorem State.issueStart_results (s : State) : (s.issueStart).results = s.results := rfl
@[simp] theorem State.issueStart_inputs (s : State) : (s.issueStart).inputs = s.inputs := rfl
@[simp] theorem State.issueStart_draws (s : State) : (s.issueStart).draws = s.draws := rfl
@[simp] theorem State.issueStart_context (s : State) : (s.issueStart).context = s.context := rfl
@[simp] theorem State.issueStart_started (s : State) : (s.issueStart).started = s.started := rfl
@[simp] theorem State.issueStart_initialised (s : State) : (s.issueStart).initialised = s.initialised := rfl

/-! ### SEND_STOP -/

@[simp] theorem State.issueStop_cfg (s : State) : (s.issueStop).cfg = s.cfg := rfl
@[simp] theorem State.issueStop_mode (s : State) : (s.issueStop).mode = s.mode := rfl
@[simp] theorem State.issueStop_err (s : State) : (s.issueStop).err = s.err := rfl
@[simp] theorem State.issueStop_rs (s : State) : (s.issueStop).rs = s.rs := rfl
@[simp] theorem State.issueStop_txbuf (s : State) : (s.issueStop).txbuf = s.txbuf := rfl
@[simp] theorem State.issueStop_txlen (s : State) : (s.issueStop).txlen = s.txlen := rfl
@[simp] theorem State.issueStop_txidx (s : State) : (s.issueStop).txidx = s.txidx := rfl
@[simp] theorem State.issueStop_rxbuf (s : State) : (s.issueStop).rxbuf = s.rxbuf := rfl
@[simp] theorem State.issueStop_rxlen (s : State) : (s.issueStop).rxlen = s.rxlen := rfl
@[simp] theorem State.issueStop_rxidx (s : State) : (s.issueStop).rxidx = s.rxidx := rfl
@[simp] theorem State.issueStop_cr (s : State) : (s.issueStop).cr = cwStop := rfl
@[simp] theorem State.issueStop_dr (s : State) : (s.issueStop).dr = s.dr := rfl
@[simp] theorem State.issueStop_sr (s : State) : (s.issueStop).sr = s.sr := rfl
@[simp] theorem State.issueStop_br (s : State) : (s.issueStop).br = s.br := rfl
@[simp] theorem State.issueStop_evf (s : State) : (s.issueStop).evf = false := Bool.and_false s.evf
@[simp] theorem State.issueStop_trace (s : State) : (s.issueStop).trace = s.trace ++ [.cr cwStop] := rfl
@[simp] theorem State.issueStop_results (s : State) : (s.issueStop).results = s.results := rfl
@[simp] theorem State.issueStop_inputs (s : State) : (s.issueStop).inputs = s.inputs := rfl
@[simp] theorem State.issueStop_draws (s : State) : (s.issueStop).draws = s.draws := rfl
@[simp] theorem State.issueStop_context (s : State) : (s.issueStop).context = s.context := rfl
@[simp] theorem State.issueStop_started (s : State) : (s.issueStop).started = s.started := rfl
@[simp] theorem State.issueStop_initialised (s : State) : (s.issueStop).initialised = s.initialised := rfl

/-! ### SEND_ACK -/

@[simp] theorem State.issueAck_cfg (s : State) : (s.issueAck).cfg = s.cfg := rfl
@[simp] theorem State.issueAck_mode (s : State) : (s.issueAck).mode = s.mode := rfl
@[simp] theorem State.issueAck_err (s : State) : (s.issueAck).err = s.err := rfl
@[simp] theorem State.issueAck_rs (s : State) : (s.issueAck).rs = s.rs := rfl
@[simp] theorem State.issueAck_txbuf (s : State) : (s.issueAck).txbuf = s.txbuf := rfl
@[simp] theorem State.issueAck_txlen (s : State) : (s.issueAck).txlen = s.txlen := rfl
@[simp] theorem State.issueAck_txidx (s : State) : (s.issueAck).txidx = s.txidx := rfl
@[simp] theorem State.issueAck_rxbuf (s : State) : (s.issueAck).rxbuf = s.rxbuf := rfl
@[simp] theorem State.issueAck_rxlen (s : State) : (s.issueAck).rxlen = s.rxlen := rfl
@[simp] theorem State.issueAck_rxidx (s : State) : (s.issueAck).rxidx = s.rxidx := rfl
@[simp] theorem State.issueAck_cr (s : State) : (s.issueAck).cr = cwAck := rfl
@[simp] theorem State.issueAck_dr (s : State) : (s.issueAck).dr = s.dr := rfl
@[simp] theorem State.issueAck_sr (s : State) : (s.issueAck).sr = s.sr := rfl
@[simp] theorem State.issueAck_br (s : State) : (s.issueAck).br = s.br := rfl
@[simp] theorem State.issueAck_evf (s : State) : (s.issueAck).evf = false := Bool.and_false s.evf
@[simp] theorem State.issueAck_trace (s : State) : (s.issueAck).trace = s.trace ++ [.cr cwAck] := rfl
@[simp] theorem State.issueAck_results (s : State) : (s.issueAck).results = s.results := rfl
@[simp] theorem State.issueAck_inputs (s : State) : (s.issueAck).inputs = s.inputs := rfl
@[simp] theorem State.issueAck_draws (s : State) : (s.issueAck).draws = s.draws := rfl
@[simp] theorem State.issueAck_context (s : State) : (s.issueAck).context = s.context := rfl
@[simp] theorem State.issueAck_started (s : State) : (s.issueAck).started = s.started := rfl
@[simp] theorem State.issueAck_initialised (s : State) : (s.issueAck).initialised = s.initialised := rfl

/-! ### SEND_NACK -/

@[simp] theorem State.issueNack_cfg (s : State) : (s.issueNack).cfg = s.cfg := rfl
@[simp] theorem State.issueNack_mode (s : State) : (s.issueNack).mode = s.mode := rfl
@[simp] theorem State.issueNack_err (s : State) : (s.issueNack).err = s.err := rfl
@[simp] theorem State.issueNack_rs (s : State) : (s.issueNack).rs = s.rs := rfl
@[simp] theorem State.issueNack_txbuf (s : State) : (s.issueNack).txbuf = s.txbuf := rfl
@[simp] theorem State.issueNack_txlen (s : State) : (s.issueNack).txlen = s.txlen := rfl
@[simp] theorem State.issueNack_txidx (s : State) : (s.issueNack).txidx = s.txidx := rfl
@[simp] theorem State.issueNack_rxbuf (s : State) : (s.issueNack).rxbuf = s.rxbuf := rfl
@[simp] theorem State.issueNack_rxlen (s : State) : (s.issueNack).rxlen = s.rxlen := rfl
@[simp] theorem State.issueNack_rxidx (s : State) : (s.issueNack).rxidx = s.rxidx := rfl
@[simp] theorem State.issueNack_cr (s : State) : (s.issueNack).cr = cwNack := rfl
@[simp] theorem State.issueNack_dr (s : State) : (s.issueNack).dr = s.dr := rfl
@[simp] theorem State.issueNack_sr (s : State) : (s.issueNack).sr = s.sr := rfl
@[simp] theorem State.issueNack_br (s : State) : (s.issueNack).br = s.br := rfl
@[simp] theorem State.issueNack_evf (s : State) : (s.issueNack).evf = false := Bool.and_false s.evf
@[simp] theorem State.issueNack_trace (s : State) : (s.issueNack).trace = s.trace ++ [.cr cwNack] := rfl
@[simp] theorem State.issueNack_results (s : State) : (s.issueNack).results = s.results := rfl
@[simp] theorem State.issueNack_inputs (s : State) : (s.issueNack).inputs = s.inputs := rfl
@[simp] theorem State.issueNack_draws (s : State) : (s.issueNack).draws = s.draws := rfl
@[simp] theorem State.issueNack_context (s : State) : (s.issueNack).context = s.context := rfl
@[simp] theorem State.issueNack_started (s : State) : (s.issueNack).started = s.started := rfl
@[simp] theorem State.issueNack_initialised (s : State) : (s.issueNack).initialised = s.initialised := rfl

/-! ### INIT's control word -/

@[simp] theorem State.writeEnable_cfg (s : State) : (s.writeEnable).cfg = s.cfg := rfl
@[simp] theorem State.writeEnable_mode (s : State) : (s.writeEnable).mode = s.mode := rfl
@[simp] theorem State.writeEnable_err (s : State) : (s.writeEnable).err = s.err := rfl
@[simp] theorem State.writeEnable_rs (s : State) : (s.writeEnable).rs = s.rs := rfl
@[simp] theorem State.writeEnable_txbuf (s : State) : (s.writeEnable).txbuf = s.txbuf := rfl
@[simp] theorem State.writeEnable_txlen (s : State) : (s.writeEnable).txlen = s.txlen := rfl
@[simp] theorem State.writeEnable_txidx (s : State) : (s.writeEnable).txidx = s.txidx := rfl
@[simp] theorem State.writeEnable_rxbuf (s : State) : (s.writeEnable).rxbuf = s.rxbuf := rfl
@[simp] theorem State.writeEnable_rxlen (s : State) : (s.writeEnable).rxlen = s.rxlen := rfl
@[simp] theorem State.writeEnable_rxidx (s : State) : (s.writeEnable).rxidx = s.rxidx := rfl
@[simp] theorem State.writeEnable_cr (s : State) : (s.writeEnable).cr = cwEnable := rfl
@[simp] theorem State.writeEnable_dr (s : State) : (s.writeEnable).dr = s.dr := rfl
@[simp] theorem State.writeEnable_sr (s : State) : (s.writeEnable).sr = s.sr := rfl
@[simp] theorem State.writeEnable_br (s : State) : (s.writeEnable).br = s.br := rfl
@[simp] theorem State.writeEnable_evf (s : State) : (s.writeEnable).evf = s.evf := Bool.and_true s.evf
@[simp] theorem State.writeEnable_trace (s : State) : (s.writeEnable).trace = s.trace ++ [.cr cwEnable] := rfl
@[simp] theorem State.writeEnable_results (s : State) : (s.writeEnable).results = s.results := rfl
@[simp] theorem State.writeEnable_inputs (s : State) : (s.writeEnable).inputs = s.inputs := rfl
@[simp] theorem State.writeEnable_draws (s : State) : (s.writeEnable).draws = s.draws := rfl
@[simp] theorem State.writeEnable_context (s : State) : (s.writeEnable).context = s.context := rfl
@[simp] theorem State.writeEnable_started (s : State) : (s.writeEnable).started = s.started := rfl
@[simp] theorem State.writeEnable_initialised (s : State) : (s.writeEnable).initialised = s.initialised := rfl

/-! ### a transaction presented first -/

@[simp] theorem State.present_cfg (s : State) (p : Packet) : (s.present p).cfg = s.cfg := rfl
@[simp] theorem State.present_mode (s : State) (p : Packet) : (s.present p).mode = s.mode := rfl
@[simp] theorem State.present_err (s : State) (p : Packet) : (s.present p).err = s.err := rfl
@[simp] theorem State.present_rs (s : State) (p : Packet) : (s.present p).rs = s.rs := rfl
@[simp] theorem State.present_txbuf (s : State) (p : Packet) : (s.present p).txbuf = s.txbuf := rfl
@[simp] theorem State.present_txlen (s : State) (p : Packet) : (s.present p).txlen = s.txlen := rfl
@[simp] theorem State.present_txidx (s : State) (p : Packet) : (s.present p).txidx = s.txidx := rfl
@[simp] theorem State.present_rxbuf (s : State) (p : Packet) : (s.present p).rxbuf = s.rxbuf := rfl
@[simp] theorem State.present_rxlen (s : State) (p : Packet) : (s.present p).rxlen = s.rxlen := rfl
@[simp] theorem State.present_rxidx (s : State) (p : Packet) : (s.present p).rxidx = s.rxidx := rfl
@[simp] theorem State.present_cr (s : State) (p : Packet) : (s.present p).cr = s.cr := rfl
@[simp] theorem State.present_dr (s : State) (p : Packet) : (s.present p).dr = s.dr := rfl
@[simp] theorem State.present_sr (s : State) (p : Packet) : (s.present p).sr = s.sr := rfl
@[simp] theorem State.present_br (s : State) (p : Packet) : (s.present p).br = s.br := rfl
@[simp] theorem State.present_evf (s : State) (p : Packet) : (s.present p).evf = s.evf := rfl
@[simp] theorem State.present_trace (s : State) (p : Packet) : (s.present p).trace = s.trace := rfl
@[simp] theorem State.present_results (s : State) (p : Packet) : (s.present p).results = s.results := rfl
@[simp] theorem State.present_inputs (s : State) (p : Packet) : (s.present p).inputs = p :: s.inputs := rfl
@[simp] theorem State.present_draws (s : State) (p : Packet) : (s.present p).draws = s.draws := rfl
@[simp] theorem State.present_context (s : State) (p : Packet) : (s.present p).context = s.context := rfl
@[simp] theorem State.present_started (s : State) (p : Packet) : (s.present p).started = s.started := rfl
@[simp] theorem State.present_initialised (s : State) (p : Packet) : (s.present p).initialised = s.initialised := rfl

/-! ### entering a context -/

@[simp] theorem State.enterContext_cfg (s : State) (c : Option Context) : (s.enterContext c).cfg = s.cfg := rfl
@[simp] theorem State.enterContext_mode (s : State) (c : Option Context) : (s.enterContext c).mode = s.mode := rfl
@[simp] theorem State.enterContext_err (s : State) (c : Option Context) : (s.enterContext c).err = s.err := rfl
@[simp] theorem State.enterContext_rs (s : State) (c : Option Context) : (s.enterContext c).rs = s.rs := rfl
@[simp] theorem State.enterContext_txbuf (s : State) (c : Option Context) : (s.enterContext c).txbuf = s.txbuf := rfl
@[simp] theorem State.enterContext_txlen (s : State) (c : Option Context) : (s.enterContext c).txlen = s.txlen := rfl
@[simp] theorem State.enterContext_txidx (s : State) (c : Option Context) : (s.enterContext c).txidx = s.txidx := rfl
@[simp] theorem State.enterContext_rxbuf (s : State) (c : Option Context) : (s.enterContext c).rxbuf = s.rxbuf := rfl
@[simp] theorem State.enterContext_rxlen (s : State) (c : Option Context) : (s.enterContext c).rxlen = s.rxlen := rfl
@[simp] theorem State.enterContext_rxidx (s : State) (c : Option Context) : (s.enterContext c).rxidx = s.rxidx := rfl
@[simp] theorem State.enterContext_cr (s : State) (c : Option Context) : (s.enterContext c).cr = s.cr := rfl
@[simp] theorem State.enterContext_dr (s : State) (c : Option Context) : (s.enterContext c).dr = s.dr := rfl
@[simp] theorem State.enterContext_sr (s : State) (c : Option Context) : (s.enterContext c).sr = s.sr := rfl
@[simp] theorem State.enterContext_br (s : State) (c : Option Context) : (s.enterContext c).br = s.br := rfl
@[simp] theorem State.enterContext_evf (s : State) (c : Option Context) : (s.enterContext c).evf = s.evf := rfl
@[simp] theorem State.enterContext_trace (s : State) (c : Option Context) : (s.enterContext c).trace = s.trace := rfl
@[simp] theorem State.enterContext_results (s : State) (c : Option Context) : (s.enterContext c).results = s.results := rfl
@[simp] theorem State.enterContext_inputs (s : State) (c : Option Context) : (s.enterContext c).inputs = s.inputs := rfl
@[simp] theorem State.enterContext_draws (s : State) (c : Option Context) : (s.enterContext c).draws = s.draws := rfl
@[simp] theorem State.enterContext_context (s : State) (c : Option Context) : (s.enterContext c).context = c := rfl
@[simp] theorem State.enterContext_started (s : State) (c : Option Context) : (s.enterContext c).started = s.started := rfl
@[simp] theorem State.enterContext_initialised (s : State) (c : Option Context) : (s.enterContext c).initialised = s.initialised := rfl

/-! ### INIT has run -/

@[simp] theorem State.setInitialised_cfg (s : State) : (s.setInitialised).cfg = s.cfg := rfl
@[simp] theorem State.setInitialised_mode (s : State) : (s.setInitialised).mode = s.mode := rfl
@[simp] theorem State.setInitialised_err (s : State) : (s.setInitialised).err = s.err := rfl
@[simp] theorem State.setInitialised_rs (s : State) : (s.setInitialised).rs = s.rs := rfl
@[simp] theorem State.setInitialised_txbuf (s : State) : (s.setInitialised).txbuf = s.txbuf := rfl
@[simp] theorem State.setInitialised_txlen (s : State) : (s.setInitialised).txlen = s.txlen := rfl
@[simp] theorem State.setInitialised_txidx (s : State) : (s.setInitialised).txidx = s.txidx := rfl
@[simp] theorem State.setInitialised_rxbuf (s : State) : (s.setInitialised).rxbuf = s.rxbuf := rfl
@[simp] theorem State.setInitialised_rxlen (s : State) : (s.setInitialised).rxlen = s.rxlen := rfl
@[simp] theorem State.setInitialised_rxidx (s : State) : (s.setInitialised).rxidx = s.rxidx := rfl
@[simp] theorem State.setInitialised_cr (s : State) : (s.setInitialised).cr = s.cr := rfl
@[simp] theorem State.setInitialised_dr (s : State) : (s.setInitialised).dr = s.dr := rfl
@[simp] theorem State.setInitialised_sr (s : State) : (s.setInitialised).sr = s.sr := rfl
@[simp] theorem State.setInitialised_br (s : State) : (s.setInitialised).br = s.br := rfl
@[simp] theorem State.setInitialised_evf (s : State) : (s.setInitialised).evf = s.evf := rfl
@[simp] theorem State.setInitialised_trace (s : State) : (s.setInitialised).trace = s.trace := rfl
@[simp] theorem State.setInitialised_results (s : State) : (s.setInitialised).results = s.results := rfl
@[simp] theorem State.setInitialised_inputs (s : State) : (s.setInitialised).inputs = s.inputs := rfl
@[simp] theorem State.setInitialised_draws (s : State) : (s.setInitialised).draws = s.draws := rfl
@[simp] theorem State.setInitialised_context (s : State) : (s.setInitialised).context = s.context := rfl
@[simp] theorem State.setInitialised_started (s : State) : (s.setInitialised).started = s.started := rfl
@[simp] theorem State.setInitialised_initialised (s : State) : (s.setInitialised).initialised = true := rfl

/-! ### leaving a context -/

@[simp] theorem State.leaveContext_cfg (s : State) : (s.leaveContext).cfg = s.cfg := rfl
@[simp] theorem State.leaveContext_mode (s : State) : (s.leaveContext).mode = s.mode := rfl
@[simp] theorem State.leaveContext_err (s : State) : (s.leaveContext).err = s.err := rfl
@[simp] theorem State.leaveContext_rs (s : State) : (s.leaveContext).rs = s.rs := rfl
@[simp] theorem State.leaveContext_txbuf (s : State) : (s.leaveContext).txbuf = s.txbuf := rfl
@[simp] theorem State.leaveContext_txlen (s : State) : (s.leaveContext).txlen = s.txlen := rfl
@[simp] theorem State.leaveContext_txidx (s : State) : (s.leaveContext).txidx = s.txidx := rfl
@[simp] theorem State.leaveContext_rxbuf (s : State) : (s.leaveContext).rxbuf = s.rxbuf := rfl
@[simp] theorem State.leaveContext_rxlen (s : State) : (s.leaveContext).rxlen = s.rxlen := rfl
@[simp] theorem State.leaveContext_rxidx (s : State) : (s.leaveContext).rxidx = s.rxidx := rfl
@[simp] theorem State.leaveContext_cr (s : State) : (s.leaveContext).cr = s.cr := rfl
@[simp] theorem State.leaveContext_dr (s : State) : (s.leaveContext).dr = s.dr := rfl
@[simp] theorem State.leaveContext_sr (s : State) : (s.leaveContext).sr = s.sr := rfl
@[simp] theorem State.leaveContext_br (s : State) : (s.leaveContext).br = s.br := rfl
@[simp] theorem State.leaveContext_evf (s : State) : (s.leaveContext).evf = s.evf := rfl
@[simp] theorem State.leaveContext_trace (s : State) : (s.leaveContext).trace = s.trace := rfl
@[simp] theorem State.leaveContext_results (s : State) : (s.leaveContext).results = s.results := rfl
@[simp] theorem State.leaveContext_inputs (s : State) : (s.leaveContext).inputs = s.inputs := rfl
@[simp] theorem State.leaveContext_draws (s : State) : (s.leaveContext).draws = s.draws := rfl
@[simp] theorem State.leaveContext_context (s : State) : (s.leaveContext).context = none := rfl
@[simp] theorem State.leaveContext_started (s : State) : (s.leaveContext).started = s.started := rfl
@[simp] theorem State.leaveContext_initialised (s : State) : (s.leaveContext).initialised = s.initialised := rfl

/-! ### taking a packet -/

@[simp] theorem State.take_cfg (s : State) (p : Packet) (q : List Packet) : (s.take p q).cfg = s.cfg := rfl
@[simp] theorem State.take_mode (s : State) (p : Packet) (q : List Packet) : (s.take p q).mode = s.mode := rfl
@[simp] theorem State.take_err (s : State) (p : Packet) (q : List Packet) : (s.take p q).err = s.err := rfl
@[simp] theorem State.take_rs (s : State) (p : Packet) (q : List Packet) : (s.take p q).rs = s.rs := rfl
@[simp] theorem State.take_txbuf (s : State) (p : Packet) (q : List Packet) : (s.take p q).txbuf = s.txbuf := rfl
@[simp] theorem State.take_txlen (s : State) (p : Packet) (q : List Packet) : (s.take p q).txlen = s.txlen := rfl
@[simp] theorem State.take_txidx (s : State) (p : Packet) (q : List Packet) : (s.take p q).txidx = s.txidx := rfl
@[simp] theorem State.take_rxbuf (s : State) (p : Packet) (q : List Packet) : (s.take p q).rxbuf = s.rxbuf := rfl
@[simp] theorem State.take_rxlen (s : State) (p : Packet) (q : List Packet) : (s.take p q).rxlen = s.rxlen := rfl
@[simp] theorem State.take_rxidx (s : State) (p : Packet) (q : List Packet) : (s.take p q).rxidx = s.rxidx := rfl
@[simp] theorem State.take_cr (s : State) (p : Packet) (q : List Packet) : (s.take p q).cr = s.cr := rfl
@[simp] theorem State.take_dr (s : State) (p : Packet) (q : List Packet) : (s.take p q).dr = s.dr := rfl
@[simp] theorem State.take_sr (s : State) (p : Packet) (q : List Packet) : (s.take p q).sr = s.sr := rfl
@[simp] theorem State.take_br (s : State) (p : Packet) (q : List Packet) : (s.take p q).br = s.br := rfl
@[simp] theorem State.take_evf (s : State) (p : Packet) (q : List Packet) : (s.take p q).evf = s.evf := rfl
@[simp] theorem State.take_trace (s : State) (p : Packet) (q : List Packet) : (s.take p q).trace = s.trace := rfl
@[simp] theorem State.take_results (s : State) (p : Packet) (q : List Packet) : (s.take p q).results = s.results := rfl
@[simp] theorem State.take_inputs (s : State) (p : Packet) (q : List Packet) : (s.take p q).inputs = q := rfl
@[simp] theorem State.take_draws (s : State) (p : Packet) (q : List Packet) : (s.take p q).draws = s.draws := rfl
@[simp] theorem State.take_context (s : State) (p : Packet) (q : List Packet) : (s.take p q).context = s.contextFor p := rfl
@[simp] theorem State.take_started (s : State) (p : Packet) (q : List Packet) : (s.take p q).started = true := rfl
@[simp] theorem State.take_initialised (s : State) (p : Packet) (q : List Packet) : (s.take p q).initialised = s.initialised := rfl

/-! ### a packet presented in the context that lets the step take it -/

@[simp] theorem State.presentReady_cfg (s : State) (p : Packet) : (s.presentReady p).cfg = s.cfg := rfl
@[simp] theorem State.presentReady_mode (s : State) (p : Packet) : (s.presentReady p).mode = s.modeToTake p := rfl
@[simp] theorem State.presentReady_err (s : State) (p : Packet) : (s.presentReady p).err = s.err := rfl
@[simp] theorem State.presentReady_rs (s : State) (p : Packet) : (s.presentReady p).rs = s.rs := rfl
@[simp] theorem State.presentReady_txbuf (s : State) (p : Packet) : (s.presentReady p).txbuf = s.txbuf := rfl
@[simp] theorem State.presentReady_txlen (s : State) (p : Packet) : (s.presentReady p).txlen = s.txlen := rfl
@[simp] theorem State.presentReady_txidx (s : State) (p : Packet) : (s.presentReady p).txidx = s.txidx := rfl
@[simp] theorem State.presentReady_rxbuf (s : State) (p : Packet) : (s.presentReady p).rxbuf = s.rxbuf := rfl
@[simp] theorem State.presentReady_rxlen (s : State) (p : Packet) : (s.presentReady p).rxlen = s.rxlen := rfl
@[simp] theorem State.presentReady_rxidx (s : State) (p : Packet) : (s.presentReady p).rxidx = s.rxidx := rfl
@[simp] theorem State.presentReady_cr (s : State) (p : Packet) : (s.presentReady p).cr = s.cr := rfl
@[simp] theorem State.presentReady_dr (s : State) (p : Packet) : (s.presentReady p).dr = s.dr := rfl
@[simp] theorem State.presentReady_sr (s : State) (p : Packet) : (s.presentReady p).sr = s.sr := rfl
@[simp] theorem State.presentReady_br (s : State) (p : Packet) : (s.presentReady p).br = s.br := rfl
@[simp] theorem State.presentReady_evf (s : State) (p : Packet) : (s.presentReady p).evf = s.evf := rfl
@[simp] theorem State.presentReady_trace (s : State) (p : Packet) : (s.presentReady p).trace = s.trace := rfl
@[simp] theorem State.presentReady_results (s : State) (p : Packet) : (s.presentReady p).results = s.results := rfl
@[simp] theorem State.presentReady_inputs (s : State) (p : Packet) : (s.presentReady p).inputs = p :: s.inputs := rfl
@[simp] theorem State.presentReady_draws (s : State) (p : Packet) : (s.presentReady p).draws = s.draws := rfl
@[simp] theorem State.presentReady_context (s : State) (p : Packet) : (s.presentReady p).context = s.contextToTake p := rfl
@[simp] theorem State.presentReady_started (s : State) (p : Packet) : (s.presentReady p).started = s.startedToTake p := rfl
@[simp] theorem State.presentReady_initialised (s : State) (p : Packet) : (s.presentReady p).initialised = s.initialisedToTake p := rfl

end Sys2Proof.Machine
end

