-- ==== Sys2Proof/Laws/Encoding.lean ====
section
/-! SUPPORT. The decoder's parts: the classification of a status value, the bits of a control word, and which
packets give which instructions. -/

namespace Sys2Proof

theorem Status.mem_all (st : Status) : st ∈ Status.all := by
  cases st <;> decide

/-- With distinct codes a named status is recognised by its own code. -/
theorem classify_code (c : Config) (h : c.Wf) (st : Status) : classify c (c.statusEnc.code st) = some st := by
  unfold classify
  cases hf : Status.all.find? (fun x => c.statusEnc.code x == c.statusEnc.code st) with
  | none =>
    have := List.find?_eq_none.mp hf st (Status.mem_all st)
    simp at this
  | some x =>
    have hx := List.find?_some hf
    rw [h.2.2.2.2.1 x (Status.mem_all x) st (Status.mem_all st) (by simpa using hx)]

/-- A value that is no named status' code is unlisted. -/
theorem classify_eq_none (c : Config) (v : Byte) (h : ∀ st ∈ Status.all, v ≠ c.statusEnc.code st) :
    classify c v = none := by
  refine List.find?_eq_none.mpr fun st hst => ?_
  simpa using (h st hst).symm

/-- What `classify` says of a value. -/
theorem classify_some (c : Config) (v : Byte) (st : Status) (h : classify c v = some st) :
    v = c.statusEnc.code st := by
  have h := List.find?_some (p := fun st => c.statusEnc.code st == v) h
  exact (eq_of_beq h).symm

theorem classify_none (c : Config) (v : Byte) (h : classify c v = none) :
    ∀ st ∈ Status.all, v ≠ c.statusEnc.code st := by
  intro st hst hv
  have := List.find?_eq_none.mp h st hst
  simp [hv] at this

theorem fieldBit_getLsbD (p q : Fin 8) (b : Bool) : (fieldBit p b).getLsbD q.val = (b && decide (p = q)) := by
  cases b
  · simp [fieldBit]
  · simp [fieldBit, Fin.ext_iff, eq_comm]

/-- Every field of a packed control word reads back at its position. -/
theorem packControl_fields (l : CrLayout) (h : l.positions.Nodup) (w : ControlWord) :
    (packControl l w).getLsbD l.ien.val = w.ien ∧ (packControl l w).getLsbD l.pen.val = w.pen ∧
    (packControl l w).getLsbD l.start.val = w.start ∧ (packControl l w).getLsbD l.stop.val = w.stop ∧
    (packControl l w).getLsbD l.acken.val = w.acken ∧ (packControl l w).getLsbD l.evack.val = w.evack := by
  simp only [CrLayout.positions, List.nodup_cons, List.mem_cons, List.not_mem_nil, or_false, not_or] at h
  obtain ⟨⟨h1, h2, h3, h4, h5⟩, ⟨h6, h7, h8, h9⟩, ⟨h10, h11, h12⟩, ⟨h13, h14⟩, h15, -⟩ := h
  simp only [packControl, BitVec.getLsbD_or, fieldBit_getLsbD]
  refine ⟨?_, ?_, ?_, ?_, ?_, ?_⟩ <;>
    simp [*, Ne.symm h1, Ne.symm h2, Ne.symm h3, Ne.symm h4, Ne.symm h5, Ne.symm h6, Ne.symm h7, Ne.symm h8,
      Ne.symm h9, Ne.symm h10, Ne.symm h11, Ne.symm h12, Ne.symm h13, Ne.symm h14, Ne.symm h15]

/-- Distinct control words are distinct bytes. -/
theorem packControl_inj (l : CrLayout) (h : l.positions.Nodup) (v w : ControlWord)
    (hp : packControl l v = packControl l w) : v = w := by
  obtain ⟨a1, a2, a3, a4, a5, a6⟩ := packControl_fields l h v
  obtain ⟨b1, b2, b3, b4, b5, b6⟩ := packControl_fields l h w
  rw [hp] at a1 a2 a3 a4 a5 a6
  obtain ⟨_, _, _, _, _, _⟩ := v
  obtain ⟨_, _, _, _, _, _⟩ := w
  simp_all

/-- The default parameters are in range (spec/00_scope.md R7). -/
theorem Config.default_wf : Config.default.Wf := by decide

/-- Where an instruction comes from: a command from the command port, a status from the event input, a primitive from the
block itself, RESET from the reset input (spec/30_encoding.md R57). -/
abbrev Source : Packet → Instr → Prop
  | .cmd _, i => match i with
    | .init => True
    | .isready => True
    | .transmit _ _ => True
    | .read _ _ _ => True
    | .geterr => True
    | .getrxlen => True
    | .getrxbyte _ => True
    | .cmdReserved _ _ => True
    | _ => False
  | .evt _ _, i => match i with
    | .evtBuserr _ => True
    | .evtStart _ => True
    | .evtRstart _ => True
    | .evtSlawAck _ => True
    | .evtSlawNack _ => True
    | .evtTxdAck _ => True
    | .evtTxdNack _ => True
    | .evtArbLost _ => True
    | .evtSlarAck _ => True
    | .evtSlarNack _ => True
    | .evtRxdAck _ _ => True
    | .evtRxdNack _ _ => True
    | .evtNoinfo _ => True
    | .evtUnlisted _ => True
    | _ => False
  | .prim _ _, i => match i with
    | .sendStart => True
    | .sendStop => True
    | .sendTransmit _ => True
    | .sendAck => True
    | .sendNack => True
    | .initCw => True
    | _ => False
  | .reset, i => i = .reset

/-- The decoder gives an instruction of the port its packet came to. -/
theorem decode_source (c : Config) (p : Packet) (i : Instr) (h : decode c p = .instr i) : Source p i := by
  cases p with
  | cmd f =>
    cases f with
    | nil => cases h
    | cons op rest =>
      simp only [decode, decodeFrame] at h
      split at h <;> try simp only [decodeBare, decodeTransmit, decodeRead, decodeGetrxbyte] at h
      all_goals repeat' split at h
      all_goals cases h
      all_goals trivial
  | evt sr dr =>
    cases h
    simp only [eventInstr]
    split <;> trivial
  | prim b w =>
    simp only [decode, decodePrimitive] at h
    repeat' split at h
    all_goals cases h
    all_goals trivial
  | reset => cases h; rfl

/-- The frame of INIT (spec/30_encoding.md R58), and nothing else, decodes to it. -/
theorem decode_init_iff (c : Config) (p : Packet) : decode c p = .instr .init ↔ p = .cmd [0x00#8] := by
  refine ⟨fun h => ?_, by rintro rfl; rfl⟩
  have hs := decode_source c p _ h
  cases p with
  | cmd f =>
    cases f with
    | nil => cases h
    | cons op rest =>
      simp only [decode, decodeFrame] at h
      split at h <;> try simp only [decodeBare, decodeTransmit, decodeRead, decodeGetrxbyte] at h
      case h_1 ho =>
        split at h
        · rw [BitVec.eq_of_toNat_eq (show op.toNat = (0x00#8).toNat from ho)]
        · cases h
      all_goals repeat' split at h
      all_goals cases h
  | evt sr dr => exact hs.elim
  | prim b w => exact hs.elim
  | reset => cases hs

/-- The reset input, and nothing else, gives RESET. -/
theorem decode_reset_iff (c : Config) (p : Packet) : decode c p = .instr .reset ↔ p = .reset := by
  refine ⟨fun h => ?_, by rintro rfl; rfl⟩
  have hs := decode_source c p _ h
  cases p with
  | cmd f => exact hs.elim
  | evt sr dr => exact hs.elim
  | prim b w => exact hs.elim
  | reset => rfl

end Sys2Proof
end

