-- ==== Sys2Proof/Laws/Memory.lean ====
section
/-! SUPPORT. Buffers: a read after a write, and every write keeps the canonical form and the capacity. -/

namespace Sys2Proof.Machine

@[simp] theorem Memory.read_nil (k : Nat) : Memory.read [] k = 0#8 := rfl

/-- Below every listed index a buffer reads 0x00. -/
theorem Memory.read_eq_zero_of_lt (m : Memory) (k : Nat) (h : ∀ x ∈ m, k < x.1) : m.read k = 0#8 := by
  induction m with
  | nil => rfl
  | cons c rest ih =>
    have hc : k < c.1 := h c (by simp)
    simp only [Memory.read, Nat.ne_of_lt hc, if_false]
    exact ih (fun x hx => h x (by simp [hx]))

/-- A read after a write to a buffer in canonical form. -/
theorem Memory.read_write (m : Memory) (k : Nat) (v : Byte) (a : Nat) (h : m.wf) :
    (m.write k v).read a = if a = k then v else m.read a := by
  induction m with
  | nil =>
    by_cases hv : v = 0#8 <;> by_cases ha : a = k <;> simp [Memory.write, Memory.read, hv, ha]
  | cons c rest ih =>
    obtain ⟨hp, hz⟩ := h
    have hlt := (List.pairwise_cons.mp hp).1
    have ih := ih ⟨(List.pairwise_cons.mp hp).2, fun x hx => hz x (by simp [hx])⟩
    simp only [Memory.write]
    split
    · next hk =>
      by_cases hv : v = 0#8
      · simp only [hv, if_true]
        split
        · next ha =>
          subst ha
          refine Memory.read_eq_zero_of_lt _ _ fun x hx => ?_
          rcases List.mem_cons.mp hx with rfl | hx
          · exact hk
          · exact Nat.lt_trans hk (hlt x hx)
        · rfl
      · simp [hv, Memory.read]
    · split
      · next hk =>
        by_cases hv : v = 0#8
        · simp only [hv, if_true, Memory.read]
          split
          · next ha =>
            exact Memory.read_eq_zero_of_lt _ _ fun x hx => by rw [ha, hk]; exact hlt x hx
          · next ha => simp [← hk, ha]
        · simp only [hv, if_false, Memory.read, ← hk]
          split <;> rfl
      · next hk =>
        simp only [Memory.read, ih]
        split
        · next ha => simp [ha, Ne.symm hk]
        · rfl

/-- The entries a write leaves: the written one, unless it is 0x00, and old ones. -/
theorem Memory.mem_write (m : Memory) (k : Nat) (v : Byte) (x : Host.Cell) (h : x ∈ m.write k v) :
    (x = (k, v) ∧ v ≠ 0#8) ∨ x ∈ m := by
  induction m with
  | nil =>
    by_cases hv : v = 0#8
    · simp [Memory.write, hv] at h
    · simp only [Memory.write, hv, if_false, List.mem_singleton] at h
      exact .inl ⟨h, hv⟩
  | cons c rest ih =>
    simp only [Memory.write] at h
    split at h
    · split at h
      · exact .inr h
      · next hv =>
        rcases List.mem_cons.mp h with h | h
        · exact .inl ⟨h, hv⟩
        · exact .inr h
    · split at h
      · split at h
        · exact .inr (List.mem_cons_of_mem _ h)
        · next hv =>
          rcases List.mem_cons.mp h with h | h
          · exact .inl ⟨h, hv⟩
          · exact .inr (List.mem_cons_of_mem _ h)
      · rcases List.mem_cons.mp h with h | h
        · exact .inr (by rw [h]; exact List.mem_cons_self)
        · exact (ih h).imp_right (List.mem_cons_of_mem _)

/-- Every entry a write leaves is non-zero, if every old one was. -/
theorem Memory.ne_zero_write (m : Memory) (k : Nat) (v : Byte) (h : ∀ x ∈ m, x.2 ≠ 0#8) :
    ∀ x ∈ m.write k v, x.2 ≠ 0#8 := by
  intro x hx
  rcases Memory.mem_write m k v x hx with ⟨rfl, hv⟩ | hx
  · exact hv
  · exact h x hx

/-- Every write keeps the canonical form. -/
theorem Memory.wf_write (m : Memory) (k : Nat) (v : Byte) (h : m.wf) : (m.write k v).wf := by
  refine ⟨?_, Memory.ne_zero_write m k v h.2⟩
  obtain ⟨hp, -⟩ := h
  induction m with
  | nil => by_cases hv : v = 0#8 <;> simp [Memory.write, hv]
  | cons c rest ih =>
    have hlt := (List.pairwise_cons.mp hp).1
    have hrest := (List.pairwise_cons.mp hp).2
    simp only [Memory.write]
    split
    · next hk =>
      split
      · exact hp
      · refine List.pairwise_cons.mpr ⟨fun x hx => ?_, hp⟩
        rcases List.mem_cons.mp hx with rfl | hx
        · exact hk
        · exact Nat.lt_trans hk (hlt x hx)
    · split
      · next hk =>
        split
        · exact hrest
        · exact List.pairwise_cons.mpr ⟨fun x hx => by rw [hk]; exact hlt x hx, hrest⟩
      · next hk hne =>
        refine List.pairwise_cons.mpr ⟨fun x hx => ?_, ih hrest⟩
        rcases Memory.mem_write rest k v x hx with ⟨rfl, -⟩ | h
        · exact Nat.lt_of_le_of_ne (Nat.le_of_not_lt hk) (Ne.symm hne)
        · exact hlt x h

/-- A copy keeps the canonical form. -/
theorem Memory.wf_copyIn (bs : List Byte) : ∀ (m : Memory) (k : Nat), m.wf → (m.copyIn k bs).wf := by
  induction bs with
  | nil => exact fun m k h => h
  | cons b bs ih => exact fun m k h => ih _ _ (Memory.wf_write m k b h)

/-- A read after a copy: the copied byte inside the copied range, the old byte outside. -/
theorem Memory.read_copyIn (bs : List Byte) : ∀ (m : Memory) (k a : Nat), m.wf →
    (m.copyIn k bs).read a = if k ≤ a ∧ a < k + bs.length then bs.getD (a - k) 0#8 else m.read a := by
  induction bs with
  | nil => intro m k a _; simp [Memory.copyIn]
  | cons b bs ih =>
    intro m k a h
    rw [Memory.copyIn, ih _ _ _ (Memory.wf_write m k b h), Memory.read_write m k b a h]
    by_cases hak : a = k
    · subst hak
      simp
    · by_cases hin : k + 1 ≤ a ∧ a < k + 1 + bs.length
      · have h1 : a - k = (a - (k + 1)) + 1 := by omega
        have h2 : k ≤ a ∧ a < k + (b :: bs).length := by simp only [List.length_cons]; omega
        rw [if_pos hin, if_pos h2, h1, List.getD_cons_succ]
      · have h2 : ¬(k ≤ a ∧ a < k + (b :: bs).length) := by simp only [List.length_cons]; omega
        rw [if_neg hin, if_neg h2, if_neg hak]

/-- The indexes a copy leaves listed: those of the copied range and old ones. -/
theorem Memory.mem_copyIn (bs : List Byte) : ∀ (m : Memory) (k : Nat) (x : Host.Cell),
    x ∈ m.copyIn k bs → (k ≤ x.1 ∧ x.1 < k + bs.length) ∨ x ∈ m := by
  induction bs with
  | nil => exact fun m k x h => .inr h
  | cons b bs ih =>
    intro m k x h
    rcases ih _ _ _ h with h | h
    · exact .inl (by simp only [List.length_cons]; omega)
    · rcases Memory.mem_write m k b x h with ⟨rfl, -⟩ | h
      · exact .inl (by simp only [List.length_cons]; omega)
      · exact .inr h

/-- The buffers of the reset state are in canonical form. -/
theorem State.reset_wf : Memory.wf State.reset.txbuf ∧ Memory.wf State.reset.rxbuf := by decide

end Sys2Proof.Machine
end

