-- ==== Sys2Proof/Laws/Ops.lean ====
section
/-! SUPPORT. One lemma per shared operation: everything it can answer. Provers cite these instead of unfolding. -/

namespace Sys2Proof.Machine

theorem State.ready_iff (s : State) : s.ready = true ↔ s.mode = .ready ∨ s.mode = .repeatedStartSent := by
  simp [State.ready]

theorem State.not_ready_iff (s : State) : s.ready = false ↔ s.mode ≠ .ready ∧ s.mode ≠ .repeatedStartSent := by
  simp [State.ready]

theorem State.txPending_iff (s : State) : s.txPending = true ↔ s.txidx.toNat < s.txlen.toNat := by
  simp [State.txPending]

theorem State.rxMoreAfterNext_iff (s : State) : s.rxMoreAfterNext = true ↔ s.rxidx.toNat + 1 < s.rxlen.toNat := by
  simp only [State.rxMoreAfterNext, decide_eq_true_eq]
  omega

/-- READ's frame is the address shifted left one bit with bit 0 set. -/
theorem addressFrame_eq (a : BitVec 7) : addressFrame a = (a.setWidth 8 <<< 1) ||| 1#8 := by
  revert a
  decide

theorem addressFrame_bit0 (a : BitVec 7) : (addressFrame a).getLsbD 0 = true := by
  revert a
  decide

/-- Staging in range (spec/44_operation_classes.md R181 (c), (d)). -/
theorem State.stageNext_of_lt (s : State) (h : s.txidx.toNat < s.cfg.txMaxLen) :
    s.stageNext = some ((s.issueTransmit (s.txbuf.read s.txidx.toNat)).setTxIdx (s.txidx + 1#8)) := by
  simp [State.stageNext, State.readTx, h]

/-- Everything staging can answer. -/
theorem State.stageNext_cases (s : State) :
    (s.txidx.toNat < s.cfg.txMaxLen ∧
      s.stageNext = some ((s.issueTransmit (s.txbuf.read s.txidx.toNat)).setTxIdx (s.txidx + 1#8))) ∨
    (s.cfg.txMaxLen ≤ s.txidx.toNat ∧ s.stageNext = none) := by
  by_cases h : s.txidx.toNat < s.cfg.txMaxLen
  · exact .inl ⟨h, s.stageNext_of_lt h⟩
  · exact .inr ⟨Nat.le_of_not_lt h, by simp [State.stageNext, State.readTx, h]⟩

/-- Everything RXSTORE can answer (spec/42_event_fsm.md R98). -/
theorem State.rxStore_cases (s : State) :
    (s.rxidx.toNat < s.cfg.rxMaxLen ∧
      s.rxStore = some s.putRx) ∨
    (s.cfg.rxMaxLen ≤ s.rxidx.toNat ∧ s.rxStore = none) := by
  by_cases h : s.rxidx.toNat < s.cfg.rxMaxLen
  · exact .inl ⟨h, by simp [State.rxStore, h]⟩
  · exact .inr ⟨Nat.le_of_not_lt h, by simp [State.rxStore, h]⟩

/-- Everything FINISH can do (spec/42_event_fsm.md R100). -/
theorem State.finish_cases (s : State) (e : Byte) :
    (s.rs = true ∧ s.finish e = (s.setErr e).issueStart) ∨
    (s.rs = false ∧ s.finish e = ((s.setMode .ready).setErr e).issueStop) := by
  cases h : s.rs <;> simp [State.finish, h]

/-- Everything RXANSWER can do (spec/42_event_fsm.md R99). -/
theorem State.rxAnswer_cases (s : State) :
    (s.rxidx.toNat + 1 < s.rxlen.toNat ∧ s.rxAnswer = s.issueAck) ∨
    (s.rxlen.toNat ≤ s.rxidx.toNat + 1 ∧ s.rxAnswer = s.issueNack) := by
  by_cases h : s.rxidx.toNat + 1 < s.rxlen.toNat
  · exact .inl ⟨h, by simp [State.rxAnswer, s.rxMoreAfterNext_iff.mpr h]⟩
  · refine .inr ⟨Nat.le_of_not_lt h, ?_⟩
    have : s.rxMoreAfterNext ≠ true := fun hc => h (s.rxMoreAfterNext_iff.mp hc)
    simp [State.rxAnswer, this]

/-- Everything TXSTEP can answer (spec/42_event_fsm.md R97). -/
theorem State.txStep_cases (s : State) :
    (s.txidx.toNat < s.txlen.toNat ∧ s.txidx.toNat < s.cfg.txMaxLen ∧
      s.txStep = .next ((s.issueTransmit (s.txbuf.read s.txidx.toNat)).setTxIdx (s.txidx + 1#8))) ∨
    (s.txidx.toNat < s.txlen.toNat ∧ s.cfg.txMaxLen ≤ s.txidx.toNat ∧
      s.txStep = .fault (.txOutOfRange s.txidx.toNat)) ∨
    (s.txlen.toNat ≤ s.txidx.toNat ∧ s.txStep = .next (s.finish 0xFF#8)) := by
  by_cases h : s.txidx.toNat < s.txlen.toNat
  · have hp := s.txPending_iff.mpr h
    rcases s.stageNext_cases with ⟨hi, he⟩ | ⟨hi, he⟩
    · exact .inl ⟨h, hi, by simp [State.txStep, hp, he, State.leaveHandler]⟩
    · exact .inr (.inl ⟨h, hi, by simp [State.txStep, hp, he]⟩)
  · have hp : s.txPending ≠ true := fun hc => h (s.txPending_iff.mp hc)
    exact .inr (.inr ⟨Nat.le_of_not_lt h, by simp [State.txStep, hp, State.leaveHandler]⟩)

/-- Everything the transaction of TRANSMIT can answer (spec/41_host_commands.md R88). -/
theorem State.transmitCommand_cases (s : State) (rs : Bool) (data : List Byte) :
    (s.cfg.txMaxLen < data.length ∧ s.transmitCommand rs data = .next (s.answer 0x01#8)) ∨
    (data.length ≤ s.cfg.txMaxLen ∧ s.ready = false ∧ s.transmitCommand rs data = .next (s.answer 0x02#8)) ∨
    (data.length ≤ s.cfg.txMaxLen ∧ s.mode = .ready ∧
      s.transmitCommand rs data =
        .next ((((s.loadTx rs data).setMode .initializing).issueStart).answer 0x00#8)) ∨
    (data.length ≤ s.cfg.txMaxLen ∧ s.mode = .repeatedStartSent ∧ 0 < s.cfg.txMaxLen ∧
      s.transmitCommand rs data =
        .next (((((s.loadTx rs data).setMode .initializing).issueTransmit
          (Memory.read (Memory.copyIn s.txbuf 0 data) 0)).setTxIdx 1#8).answer 0x00#8)) ∨
    (data.length ≤ s.cfg.txMaxLen ∧ s.mode = .repeatedStartSent ∧ s.cfg.txMaxLen = 0 ∧
      s.transmitCommand rs data = .fault (.txOutOfRange 0)) := by
  by_cases hl : s.cfg.txMaxLen < data.length
  · exact .inl ⟨hl, by simp [State.transmitCommand, State.txTooLong, hl, State.rejectCommand, rejectionCode]⟩
  · have hl' := Nat.le_of_not_lt hl
    refine .inr ?_
    cases hr : s.ready
    · exact .inl ⟨hl', rfl, by
        simp [State.transmitCommand, State.txTooLong, hl, hr, State.rejectCommand, rejectionCode]⟩
    · refine .inr ?_
      rcases s.ready_iff.mp hr with hm | hm
      · exact .inl ⟨hl', hm, by simp [State.transmitCommand, State.txTooLong, hl, hr, hm, codeOk]⟩
      · refine .inr ?_
        rcases State.stageNext_cases ((s.loadTx rs data).setMode .initializing) with ⟨hi, he⟩ | ⟨hi, he⟩
        · refine .inl ⟨hl', hm, by simpa using hi, ?_⟩
          simp only [State.transmitCommand, State.txTooLong, hl, hr, hm, he, codeOk]
          simp
        · refine .inr ⟨hl', hm, by simpa using hi, ?_⟩
          simp only [State.transmitCommand, State.txTooLong, hl, hr, hm, he]
          simp

/-- When the contexts let a packet be taken: a primitive inside a transaction, everything else between transactions. -/
abbrev State.Takes (s : State) : Packet → Prop
  | .prim _ _ => s.context ≠ none
  | .cmd _ => s.context = none
  | .evt _ _ => s.context = none
  | .reset => s.context = none

/-- Why a packet is barred, and when not (spec/40_primitives.md R78, spec/20_memory.md R45). -/
theorem State.bars_cases (s : State) (p : Packet) :
    (s.Takes p ∧ s.bars p = none) ∨
    (s.context = none ∧ (∃ b w, p = .prim b w) ∧ s.bars p = some .primitiveAlone) ∨
    (s.context ≠ none ∧ (∀ b w, p ≠ .prim b w) ∧ s.bars p = some .insideTransaction) := by
  by_cases h : s.context = none <;> cases p <;> simp [State.Takes, State.bars, h]

theorem State.bars_eq_none_iff (s : State) (p : Packet) : s.bars p = none ↔ s.Takes p := by
  by_cases h : s.context = none <;> cases p <;> simp [State.Takes, State.bars, h]

/-- The host commands but INIT, which the launch premise lets run after INIT only; a reserved opcode stops by itself. -/
abbrev FollowsInit : Instr → Prop
  | .isready => True
  | .transmit _ _ => True
  | .read _ _ _ => True
  | .geterr => True
  | .getrxlen => True
  | .getrxbyte _ => True
  | _ => False

/-- When the launch premise lets an instruction run (spec/70_reset_and_hazards.md R155, R157, R169): a reset before the
run has started, INIT in `Ready`, the other commands after INIT, everything else always. -/
abbrev State.Launches (s : State) (i : Instr) : Prop :=
  (i = .reset → s.started = false) ∧ (i = .init → s.mode = .ready) ∧ (FollowsInit i → s.initialised = true)

/-- Why the launch premise refuses an instruction, and when not. -/
theorem State.launchBars_cases (s : State) (i : Instr) :
    (s.Launches i ∧ s.launchBars i = none) ∨
    (i = .reset ∧ s.started = true ∧ s.launchBars i = some .resetInRun) ∨
    (i = .init ∧ s.mode ≠ .ready ∧ s.launchBars i = some .initNotIdle) ∨
    (FollowsInit i ∧ s.initialised = false ∧ s.launchBars i = some .beforeInit) := by
  by_cases hm : s.mode = .ready <;> cases hs : s.started <;> cases hi : s.initialised <;> cases i <;>
    simp [State.Launches, State.launchBars, hm, hs, hi]

theorem State.launchBars_eq_none_iff (s : State) (i : Instr) : s.launchBars i = none ↔ s.Launches i := by
  rcases s.launchBars_cases i with ⟨a, b⟩ | ⟨rfl, a, b⟩ | ⟨rfl, a, b⟩ | ⟨a, c, b⟩
  · exact ⟨fun _ => a, fun _ => b⟩
  · simp [b, State.Launches, a]
  · simp [b, State.Launches, a]
  · simp [b, State.Launches, a, c]

/-- A packet presented ready is taken, whatever context was under way. -/
theorem State.presentReady_takes (s : State) (p : Packet) : (s.presentReady p).Takes p := by
  cases p <;> simp [State.Takes, State.contextToTake]

/-- A host command but INIT comes from the command port, in a frame that is not INIT's. -/
theorem followsInit_of_decode (c : Config) (p : Packet) (i : Instr) (h : decode c p = .instr i) (hi : FollowsInit i) :
    ∃ f, p = .cmd f ∧ f ≠ [0x00#8] := by
  have hs := decode_source c p i h
  cases p with
  | cmd f =>
    refine ⟨f, rfl, ?_⟩
    rintro rfl
    cases h
    exact hi
  | evt sr dr => cases i <;> simp_all [FollowsInit, Source]
  | prim b w => cases i <;> simp_all [FollowsInit, Source]
  | reset => cases i <;> simp_all [FollowsInit, Source]

/-- An event or a primitive is no business of the launch premise. -/
theorem State.launches_of_decode (s : State) (c : Config) (p : Packet) (i : Instr) (h : decode c p = .instr i)
    (hc : ∀ f, p ≠ .cmd f) (hr : p ≠ .reset) : s.Launches i := by
  refine ⟨?_, ?_, ?_⟩
  · rintro rfl
    exact absurd ((decode_reset_iff c p).mp h) hr
  · rintro rfl
    exact absurd ((decode_init_iff c p).mp h) (hc _)
  · intro hi
    obtain ⟨f, rfl, _⟩ := followsInit_of_decode c p i h hi
    exact absurd rfl (hc f)

/-- An instruction presented ready runs: the launch premise holds of it, whatever the run did before. -/
theorem State.presentReady_launches (s : State) (p : Packet) (i : Instr) (h : decode s.cfg p = .instr i) :
    (s.presentReady p).Launches i := by
  refine ⟨?_, ?_, ?_⟩
  · rintro rfl
    obtain rfl := (decode_reset_iff _ _).mp h
    rfl
  · rintro rfl
    obtain rfl := (decode_init_iff _ _).mp h
    rfl
  · intro hi
    obtain ⟨f, rfl, hf⟩ := followsInit_of_decode _ _ _ h hi
    simp [State.initialisedToTake, hf]

/-- Everything the end of a transaction can answer. -/
theorem endTransaction_cases (o : Outcome) :
    (∃ u, o = .next u ∧ endTransaction o = .next u.leaveContext) ∨
    (∃ f, o = .fault f ∧ endTransaction o = .fault f) ∨
    (∃ r, o = .refused r ∧ endTransaction o = .refused r) := by
  cases o <;> simp [endTransaction]

@[simp] theorem endTransaction_eq_next (o : Outcome) (t : State) :
    endTransaction o = .next t ↔ ∃ u, o = .next u ∧ u.leaveContext = t := by
  cases o <;> simp [endTransaction]

@[simp] theorem endTransaction_eq_fault (o : Outcome) (f : Fault) : endTransaction o = .fault f ↔ o = .fault f := by
  cases o <;> simp [endTransaction]

@[simp] theorem endTransaction_eq_refused (o : Outcome) (r : Refusal) :
    endTransaction o = .refused r ↔ o = .refused r := by
  cases o <;> simp [endTransaction]

/-- Everything fetching can find. -/
theorem State.fetch_cases (s : State) :
    (s.inputs = [] ∧ s.fetch = .idle) ∨
    (∃ p rest r, s.inputs = p :: rest ∧ s.bars p = some r ∧ s.fetch = .refuse r) ∨
    (∃ p rest r, s.inputs = p :: rest ∧ s.bars p = none ∧ decode s.cfg p = .reject r ∧
      s.fetch = .refuse (.undecodable r)) ∨
    (∃ p rest i r, s.inputs = p :: rest ∧ s.bars p = none ∧ decode s.cfg p = .instr i ∧ s.launchBars i = some r ∧
      s.fetch = .refuse r) ∨
    (∃ p rest i, s.inputs = p :: rest ∧ s.bars p = none ∧ decode s.cfg p = .instr i ∧ s.launchBars i = none ∧
      s.fetch = .run i (s.take p rest)) := by
  cases hi : s.inputs with
  | nil => exact .inl ⟨rfl, by simp [State.fetch, hi]⟩
  | cons p rest =>
    refine .inr ?_
    cases hb : s.bars p with
    | some r => exact .inl ⟨p, rest, r, rfl, hb, by simp [State.fetch, hi, hb]⟩
    | none =>
      refine .inr ?_
      cases hd : decode s.cfg p with
      | reject r => exact .inl ⟨p, rest, r, rfl, hb, hd, by simp [State.fetch, hi, hb, hd]⟩
      | instr i =>
        refine .inr ?_
        cases hl : s.launchBars i with
        | some r => exact .inl ⟨p, rest, i, r, rfl, hb, hd, hl, by simp [State.fetch, hi, hb, hd, hl]⟩
        | none => exact .inr ⟨p, rest, i, rfl, hb, hd, hl, by simp [State.fetch, hi, hb, hd, hl]⟩

/-- Everything a step can do: stay idle, refuse a packet that cannot be taken here, is no instruction or breaks the launch
premise, or run the decoded instruction to the end of its transaction. -/
theorem step_cases (s : State) :
    (s.inputs = [] ∧ step s = .next s) ∨
    (∃ p rest r, s.inputs = p :: rest ∧ s.bars p = some r ∧ step s = .refused r) ∨
    (∃ p rest r, s.inputs = p :: rest ∧ s.bars p = none ∧ decode s.cfg p = .reject r ∧
      step s = .refused (.undecodable r)) ∨
    (∃ p rest i r, s.inputs = p :: rest ∧ s.bars p = none ∧ decode s.cfg p = .instr i ∧ s.launchBars i = some r ∧
      step s = .refused r) ∨
    (∃ p rest i, s.inputs = p :: rest ∧ s.bars p = none ∧ decode s.cfg p = .instr i ∧ s.launchBars i = none ∧
      step s = endTransaction (exec i (s.take p rest))) := by
  rcases s.fetch_cases with ⟨hi, hf⟩ | ⟨p, rest, r, hi, hb, hf⟩ | ⟨p, rest, r, hi, hb, hd, hf⟩ |
      ⟨p, rest, i, r, hi, hb, hd, hl, hf⟩ | ⟨p, rest, i, hi, hb, hd, hl, hf⟩
  · exact .inl ⟨hi, by simp [step, hf]⟩
  · exact .inr (.inl ⟨p, rest, r, hi, hb, by simp [step, hf]⟩)
  · exact .inr (.inr (.inl ⟨p, rest, r, hi, hb, hd, by simp [step, hf]⟩))
  · exact .inr (.inr (.inr (.inl ⟨p, rest, i, r, hi, hb, hd, hl, by simp [step, hf]⟩)))
  · exact .inr (.inr (.inr (.inr ⟨p, rest, i, hi, hb, hd, hl, by simp [step, hf]⟩)))

end Sys2Proof.Machine
end

