-- ==== Sys2Proof/Laws/Next.lean ====
section
/-! SUPPORT. The inversion of `exec`, said once: for every next state, which instruction gave it, on what condition, and
what it is as a composition of the named updates, whose fields the simp lemmas of Laws/State.lean read off. A claim about
every instruction is a case split over `exec_next`. -/

namespace Sys2Proof.Machine

/-- `ExecNext i s t`: in state `s` the instruction `i` gives the next state `t`. -/
inductive ExecNext : Instr → State → State → Prop
  | init (s) :
      ExecNext .init s (((((((s.setMode .ready).setErr 0xFF#8).setRs false).writeBr
        s.cfg.brInit).writeEnable).setInitialised).answer 0x00#8)
  | answer (i s c)
      (hi : (i = .isready ∧ c = if s.ready then 0x01#8 else 0x00#8) ∨ (i = .geterr ∧ c = s.err) ∨
        (i = .getrxlen ∧ c = s.rxlen) ∨
        ∃ k : Byte, i = .getrxbyte k ∧ k.toNat < s.cfg.rxMaxLen ∧ c = s.rxbuf.read k.toNat) :
      ExecNext i s (s.answer c)
  | txLong (s rs d) (h : s.cfg.txMaxLen < d.length) :
      ExecNext (.transmit rs d) s (s.answer 0x01#8)
  | txBusy (s rs d) (h : d.length ≤ s.cfg.txMaxLen) (hr : s.ready = false) :
      ExecNext (.transmit rs d) s (s.answer 0x02#8)
  | txReady (s rs d) (h : d.length ≤ s.cfg.txMaxLen) (hr : s.mode = .ready) :
      ExecNext (.transmit rs d) s ((((s.loadTx rs d).setMode .initializing).issueStart).answer 0x00#8)
  | txHeld (s rs d) (h : d.length ≤ s.cfg.txMaxLen) (hr : s.mode = .repeatedStartSent) (h0 : 0 < s.cfg.txMaxLen) :
      ExecNext (.transmit rs d) s
        (((((s.loadTx rs d).setMode .initializing).issueTransmit
          (Memory.read (Memory.copyIn s.txbuf 0 d) 0)).setTxIdx 1#8).answer 0x00#8)
  | rxLong (s rs a n) (h : s.cfg.rxMaxLen < n.toNat) :
      ExecNext (.read rs a n) s (s.answer 0x01#8)
  | rxBusy (s rs a n) (h : n.toNat ≤ s.cfg.rxMaxLen) (hr : s.ready = false) :
      ExecNext (.read rs a n) s (s.answer 0x02#8)
  | rxNoTx (s rs a n) (h : n.toNat ≤ s.cfg.rxMaxLen) (hr : s.ready = true) (h0 : s.cfg.txMaxLen < 1) :
      ExecNext (.read rs a n) s ((s.setRx 0#8 n).answer 0x01#8)
  | rxReady (s rs a n) (h : n.toNat ≤ s.cfg.rxMaxLen) (hr : s.mode = .ready) (h0 : 1 ≤ s.cfg.txMaxLen) :
      ExecNext (.read rs a n) s
        (((((s.setRx 0#8 n).loadTx rs [addressFrame a]).setMode .initializing).issueStart).answer 0x00#8)
  | rxHeld (s rs a n) (h : n.toNat ≤ s.cfg.rxMaxLen) (hr : s.mode = .repeatedStartSent) (h0 : 1 ≤ s.cfg.txMaxLen) :
      ExecNext (.read rs a n) s
        ((((((s.setRx 0#8 n).loadTx rs [addressFrame a]).setMode .initializing).issueTransmit
          (Memory.read (Memory.copyIn s.txbuf 0 [addressFrame a]) 0)).setTxIdx 1#8).answer 0x00#8)
  | txStep (i s sr m)
      (hi : (i = .evtStart sr ∧ m = s.mode) ∨ (i = .evtSlawAck sr ∧ m = .masterTransmitter) ∨
        (i = .evtTxdAck sr ∧ m = s.mode))
      (h : s.txidx.toNat < s.txlen.toNat) (hc : s.txidx.toNat < s.cfg.txMaxLen) :
      ExecNext i s (((((s.enterHandler sr).setMode m).issueTransmit (s.txbuf.read s.txidx.toNat)).setTxIdx (s.txidx + 1#8)))
  | txStart (i s sr m)
      (hi : (i = .evtStart sr ∧ m = s.mode) ∨ (i = .evtSlawAck sr ∧ m = .masterTransmitter) ∨
        (i = .evtTxdAck sr ∧ m = s.mode))
      (h : s.txlen.toNat ≤ s.txidx.toNat) (hr : s.rs = true) :
      ExecNext i s ((((s.enterHandler sr).setMode m).setErr 0xFF#8).issueStart)
  | txStop (i s sr) (hi : i = .evtStart sr ∨ i = .evtSlawAck sr ∨ i = .evtTxdAck sr)
      (h : s.txlen.toNat ≤ s.txidx.toNat) (hr : s.rs = false) :
      ExecNext i s ((((s.enterHandler sr).setMode .ready).setErr 0xFF#8).issueStop)
  | slarAck (s sr) (h : s.rxidx.toNat + 1 < s.rxlen.toNat) :
      ExecNext (.evtSlarAck sr) s (((s.enterHandler sr).setMode .masterReceiver).issueAck)
  | slarNack (s sr) (h : s.rxlen.toNat ≤ s.rxidx.toNat + 1) :
      ExecNext (.evtSlarAck sr) s (((s.enterHandler sr).setMode .masterReceiver).issueNack)
  | rxAck (s sr dr) (h : s.rxidx.toNat < s.cfg.rxMaxLen) (h1 : (s.rxidx + 1#8).toNat + 1 < s.rxlen.toNat) :
      ExecNext (.evtRxdAck sr dr) s ((s.enterHandlerRx sr dr).putRx.issueAck)
  | rxNack (s sr dr) (h : s.rxidx.toNat < s.cfg.rxMaxLen) (h1 : s.rxlen.toNat ≤ (s.rxidx + 1#8).toNat + 1) :
      ExecNext (.evtRxdAck sr dr) s ((s.enterHandlerRx sr dr).putRx.issueNack)
  | rxStart (s sr dr) (h : s.rxidx.toNat < s.cfg.rxMaxLen) (hr : s.rs = true) :
      ExecNext (.evtRxdNack sr dr) s (((s.enterHandlerRx sr dr).putRx.setErr 0xFF#8).issueStart)
  | rxStop (s sr dr) (h : s.rxidx.toNat < s.cfg.rxMaxLen) (hr : s.rs = false) :
      ExecNext (.evtRxdNack sr dr) s ((((s.enterHandlerRx sr dr).putRx.setMode .ready).setErr 0xFF#8).issueStop)
  | failStart (i s sr)
      (hi : i = .evtSlarNack sr ∨ i = .evtSlawNack sr ∨ i = .evtTxdNack sr ∨ i = .evtArbLost sr) (hr : s.rs = true) :
      ExecNext i s (((s.enterHandler sr).setErr (sr &&& s.cfg.statusMask)).issueStart)
  | failStop (i s sr)
      (hi : i = .evtSlarNack sr ∨ i = .evtSlawNack sr ∨ i = .evtTxdNack sr ∨ i = .evtArbLost sr) (hr : s.rs = false) :
      ExecNext i s ((((s.enterHandler sr).setMode .ready).setErr (sr &&& s.cfg.statusMask)).issueStop)
  | rstart (s sr) :
      ExecNext (.evtRstart sr) s ((s.enterHandler sr).setMode .repeatedStartSent)
  | buserr (s sr) :
      ExecNext (.evtBuserr sr) s ((((s.enterHandler sr).setErr (sr &&& s.cfg.statusMask)).setMode .ready).issueStop)
  | noinfo (s sr) :
      ExecNext (.evtNoinfo sr) s (s.enterHandler sr)
  | unlisted (s sr) :
      ExecNext (.evtUnlisted sr) s (s.enterHandler sr)
  | sendStart (s) :
      ExecNext .sendStart s s.issueStart
  | sendStop (s) :
      ExecNext .sendStop s s.issueStop
  | sendTransmit (s b) :
      ExecNext (.sendTransmit b) s (s.issueTransmit b)
  | sendAck (s) :
      ExecNext .sendAck s s.issueAck
  | sendNack (s) :
      ExecNext .sendNack s s.issueNack
  | initCw (s) :
      ExecNext .initCw s s.writeEnable
  | reset (s) :
      ExecNext .reset s { State.resetWith s.cfg with
        dr := Config.freeByte s.draws
        sr := Config.freeByte (s.draws + 1)
        br := Config.freeDivisor (s.draws + 2)
        results := s.results
        inputs := s.inputs
        started := s.started
        draws := s.draws + 3 }

/-- TXSTEP's row: S_START, S_SLAW_ACK, S_TXD_ACK. -/
theorem txStep_next (s : State) (sr m i)
    (hi : (i = .evtStart sr ∧ m = s.mode) ∨ (i = .evtSlawAck sr ∧ m = .masterTransmitter) ∨
      (i = .evtTxdAck sr ∧ m = s.mode))
    (t) (h : ((s.enterHandler sr).setMode m).txStep = .next t) : ExecNext i s t := by
  rcases ((s.enterHandler sr).setMode m).txStep_cases with ⟨a, b, c⟩ | ⟨a, b, c⟩ | ⟨a, b⟩
  · rw [c] at h; cases h; exact .txStep i s sr m hi (by simpa using a) (by simpa using b)
  · rw [c] at h; cases h
  · rw [b] at h; cases h
    simp at a
    rcases ((s.enterHandler sr).setMode m).finish_cases 0xFF#8 with ⟨c, d⟩ | ⟨c, d⟩
    · rw [d]; exact .txStart i s sr m hi a (by simpa using c)
    · rw [d]; exact .txStop i s sr (by rcases hi with h | h | h <;> simp [h.1]) a (by simpa using c)

/-- The four failures that end a transfer. -/
theorem failTransfer_next (s : State) (sr i t)
    (hi : i = .evtSlarNack sr ∨ i = .evtSlawNack sr ∨ i = .evtTxdNack sr ∨ i = .evtArbLost sr)
    (h : (s.enterHandler sr).failTransfer = .next t) : ExecNext i s t := by
  cases h
  rcases (s.enterHandler sr).finish_cases (s.enterHandler sr).statusCode with ⟨c, d⟩ | ⟨c, d⟩
  · rw [d]; exact .failStart i s sr hi (by simpa using c)
  · rw [d]; exact .failStop i s sr hi (by simpa using c)

/-- The inversion of `exec`: a next state is one of those listed. -/
theorem exec_next (i s t) (h : exec i s = .next t) : ExecNext i s t := by
  cases i
  case init => cases h; exact .init s
  case isready => cases h; exact .answer _ s _ (by simp)
  case geterr => cases h; exact .answer _ s _ (by simp)
  case getrxlen => cases h; exact .answer _ s _ (by simp)
  case getrxbyte k =>
    simp only [exec, execGetrxbyte, State.readRx] at h
    by_cases hk : k.toNat < s.cfg.rxMaxLen
    · simp only [hk, if_true] at h
      cases h
      exact .answer _ s _ (by simp [hk])
    · simp only [hk, if_false] at h
      cases h
  case cmdReserved => cases h
  case transmit rs d =>
    simp only [exec, execTransmit] at h
    rcases s.transmitCommand_cases rs d with ⟨a, b⟩ | ⟨a, b, c⟩ | ⟨a, b, c⟩ | ⟨a, b, c, e⟩ | ⟨a, b, c, e⟩
    · rw [b] at h; cases h; exact .txLong _ _ _ a
    · rw [c] at h; cases h; exact .txBusy _ _ _ a b
    · rw [c] at h; cases h; exact .txReady _ _ _ a b
    · rw [e] at h; cases h; exact .txHeld _ _ _ a b c
    · rw [e] at h; cases h
  case read rs ad n =>
    simp only [exec, execRead, State.rxTooLong, decide_eq_true_eq] at h
    split at h
    · next hl => cases h; exact .rxLong _ _ _ _ hl
    · next hl =>
      split at h
      · next hr => cases h; exact .rxBusy _ _ _ _ (Nat.le_of_not_lt hl) (by simpa using hr)
      · next hr =>
        have hl := Nat.le_of_not_lt hl
        rcases (s.setRx 0#8 n).transmitCommand_cases rs [addressFrame ad] with
          ⟨a, b⟩ | ⟨a, b, c⟩ | ⟨a, b, c⟩ | ⟨a, b, c, e⟩ | ⟨a, b, c, e⟩
        · rw [b] at h; cases h; exact .rxNoTx _ _ _ _ hl (by simpa using hr) (by simpa using a)
        · simp [State.ready] at b hr; simp_all
        · rw [c] at h; cases h; exact .rxReady _ _ _ _ hl (by simpa using b) (by simpa using a)
        · rw [e] at h; cases h; exact .rxHeld _ _ _ _ hl (by simpa using b) (by simpa using a)
        · rw [e] at h; cases h
  case evtStart sr => exact txStep_next s sr s.mode _ (by simp) t h
  case evtSlawAck sr => exact txStep_next s sr .masterTransmitter _ (by simp) t h
  case evtTxdAck sr => exact txStep_next s sr s.mode _ (by simp) t h
  case evtSlarAck sr =>
    cases h
    rcases ((s.enterHandler sr).setMode .masterReceiver).rxAnswer_cases with ⟨a, b⟩ | ⟨a, b⟩
    · rw [b]; exact .slarAck _ _ (by simpa using a)
    · rw [b]; exact .slarNack _ _ (by simpa using a)
  case evtRxdAck sr dr =>
    simp only [exec, execEvtRxdAck] at h
    rcases (s.enterHandlerRx sr dr).rxStore_cases with ⟨a, b⟩ | ⟨a, b⟩
    · rw [b] at h; cases h
      rcases (s.enterHandlerRx sr dr).putRx.rxAnswer_cases with ⟨c, d⟩ | ⟨c, d⟩
      · rw [d]; exact .rxAck _ _ _ (by simpa using a) (by
          simpa only [State.putRx_rxidx, State.putRx_rxlen, State.enterHandlerRx_rxidx, State.enterHandlerRx_rxlen] using c)
      · rw [d]; exact .rxNack _ _ _ (by simpa using a) (by
          simpa only [State.putRx_rxidx, State.putRx_rxlen, State.enterHandlerRx_rxidx, State.enterHandlerRx_rxlen] using c)
    · rw [b] at h; cases h
  case evtRxdNack sr dr =>
    simp only [exec, execEvtRxdNack] at h
    rcases (s.enterHandlerRx sr dr).rxStore_cases with ⟨a, b⟩ | ⟨a, b⟩
    · rw [b] at h; cases h
      rcases (s.enterHandlerRx sr dr).putRx.finish_cases 0xFF#8 with ⟨c, d⟩ | ⟨c, d⟩
      · rw [d]; exact .rxStart _ _ _ (by simpa using a) (by simpa using c)
      · rw [d]; exact .rxStop _ _ _ (by simpa using a) (by simpa using c)
    · rw [b] at h; cases h
  case evtSlarNack sr => exact failTransfer_next s sr _ t (by simp) h
  case evtSlawNack sr => exact failTransfer_next s sr _ t (by simp) h
  case evtTxdNack sr => exact failTransfer_next s sr _ t (by simp) h
  case evtArbLost sr => exact failTransfer_next s sr _ t (by simp) h
  case evtRstart sr => cases h; exact .rstart _ _
  case evtBuserr sr => cases h; exact .buserr _ _
  case evtNoinfo sr => cases h; exact .noinfo _ _
  case evtUnlisted sr => cases h; exact .unlisted _ _
  case sendStart => cases h; exact .sendStart _
  case sendStop => cases h; exact .sendStop _
  case sendTransmit => cases h; exact .sendTransmit _ _
  case sendAck => cases h; exact .sendAck _
  case sendNack => cases h; exact .sendNack _
  case initCw => cases h; exact .initCw _
  case reset => cases h; exact .reset _

/-- The converse: each of them is what `exec` answers. -/
theorem exec_of_execNext (i s t) (h : ExecNext i s t) : exec i s = .next t := by
  have htx : ∀ u : State, u.txidx.toNat < u.txlen.toNat → u.txidx.toNat < u.cfg.txMaxLen →
      u.txStep = .next ((u.issueTransmit (u.txbuf.read u.txidx.toNat)).setTxIdx (u.txidx + 1#8)) := by
    intro u h hc
    rcases u.txStep_cases with ⟨_, _, c⟩ | ⟨_, b, _⟩ | ⟨a, _⟩
    · exact c
    · omega
    · omega
  have hend : ∀ u : State, u.txlen.toNat ≤ u.txidx.toNat → u.txStep = .next (u.finish 0xFF#8) := by
    intro u h
    rcases u.txStep_cases with ⟨a, _, _⟩ | ⟨a, _, _⟩ | ⟨_, c⟩
    · omega
    · omega
    · exact c
  have hcmd : ∀ (u : State) rs d, d.length ≤ u.cfg.txMaxLen → u.mode = .repeatedStartSent → 0 < u.cfg.txMaxLen →
      u.transmitCommand rs d = .next (((((u.loadTx rs d).setMode .initializing).issueTransmit
        (Memory.read (Memory.copyIn u.txbuf 0 d) 0)).setTxIdx 1#8).answer 0x00#8) := by
    intro u rs d h hr h0
    rcases u.transmitCommand_cases rs d with ⟨a, _⟩ | ⟨_, a, _⟩ | ⟨_, a, _⟩ | ⟨_, _, _, e⟩ | ⟨_, _, a, _⟩
    · omega
    · simp [State.ready, hr] at a
    · rw [hr] at a; cases a
    · exact e
    · omega
  have hstart : ∀ (u : State) e, u.rs = true → u.finish e = (u.setErr e).issueStart := by
    intro u e h
    simp [State.finish, h]
  have hstop : ∀ (u : State) e, u.rs = false → u.finish e = ((u.setMode .ready).setErr e).issueStop := by
    intro u e h
    simp [State.finish, h]
  have hack : ∀ u : State, u.rxidx.toNat + 1 < u.rxlen.toNat → u.rxAnswer = u.issueAck := by
    intro u h
    simp [State.rxAnswer, u.rxMoreAfterNext_iff.mpr h]
  have hnack : ∀ u : State, u.rxlen.toNat ≤ u.rxidx.toNat + 1 → u.rxAnswer = u.issueNack := by
    intro u h
    rcases u.rxAnswer_cases with ⟨a, _⟩ | ⟨_, b⟩
    · omega
    · exact b
  have hstore : ∀ u : State, u.rxidx.toNat < u.cfg.rxMaxLen → u.rxStore = some u.putRx := by
    intro u h
    simp [State.rxStore, h]
  cases h
  case answer c hi =>
    rcases hi with ⟨rfl, rfl⟩ | ⟨rfl, rfl⟩ | ⟨rfl, rfl⟩ | ⟨k, rfl, hk, rfl⟩
    · rfl
    · rfl
    · rfl
    · simp [exec, execGetrxbyte, State.readRx, hk]
  case txLong h => simp [exec, execTransmit, State.transmitCommand, State.txTooLong, h, State.rejectCommand, rejectionCode]
  case txBusy h hr =>
    simp [exec, execTransmit, State.transmitCommand, State.txTooLong, Nat.not_lt_of_le h, hr, State.rejectCommand,
      rejectionCode]
  case txReady h hr =>
    simp [exec, execTransmit, State.transmitCommand, State.txTooLong, Nat.not_lt_of_le h, State.ready, hr, codeOk]
  case txHeld rs d h hr h0 => exact hcmd s rs d h hr h0
  case rxLong h => simp [exec, execRead, State.rxTooLong, h, State.rejectCommand, rejectionCode]
  case rxBusy h hr => simp [exec, execRead, State.rxTooLong, Nat.not_lt_of_le h, hr, State.rejectCommand, rejectionCode]
  case rxNoTx rs a n h hr h0 =>
    rcases (s.setRx 0#8 n).transmitCommand_cases rs [addressFrame a] with ⟨_, b⟩ | ⟨a, _⟩ | ⟨a, _⟩ | ⟨a, _⟩ | ⟨a, _⟩
    · simp [exec, execRead, State.rxTooLong, Nat.not_lt_of_le h, hr, b]
    all_goals simp at a; omega
  case rxReady h hr h0 =>
    simp [exec, execRead, State.transmitCommand, State.rxTooLong, State.txTooLong, Nat.not_lt_of_le h,
      Nat.not_lt_of_le h0, State.ready, hr, codeOk]
  case rxHeld rs a n h hr h0 =>
    have hready : s.ready = true := s.ready_iff.mpr (.inr hr)
    have := hcmd (s.setRx 0#8 n) rs [addressFrame a] h0 hr h0
    simp only [exec, execRead, State.rxTooLong, Nat.not_lt_of_le h, hready, this]
    simp
  case txStep sr m h hc hi =>
    rcases hi with ⟨rfl, rfl⟩ | ⟨rfl, rfl⟩ | ⟨rfl, rfl⟩
    · exact htx (s.enterHandler sr) h hc
    · exact htx ((s.enterHandler sr).setMode .masterTransmitter) h hc
    · exact htx (s.enterHandler sr) h hc
  case txStart sr m h hr hi =>
    rcases hi with ⟨rfl, rfl⟩ | ⟨rfl, rfl⟩ | ⟨rfl, rfl⟩
    · exact (hend (s.enterHandler sr) h).trans (congrArg _ (hstart _ _ hr))
    · exact (hend ((s.enterHandler sr).setMode .masterTransmitter) h).trans (congrArg _ (hstart _ _ hr))
    · exact (hend (s.enterHandler sr) h).trans (congrArg _ (hstart _ _ hr))
  case txStop sr hi h hr =>
    rcases hi with rfl | rfl | rfl
    · exact (hend (s.enterHandler sr) h).trans (congrArg _ (hstop _ _ hr))
    · exact (hend ((s.enterHandler sr).setMode .masterTransmitter) h).trans (congrArg _ (hstop _ _ hr))
    · exact (hend (s.enterHandler sr) h).trans (congrArg _ (hstop _ _ hr))
  case slarAck sr h => exact congrArg _ (hack ((s.enterHandler sr).setMode .masterReceiver) h)
  case slarNack sr h => exact congrArg _ (hnack ((s.enterHandler sr).setMode .masterReceiver) h)
  case rxAck sr dr h h1 =>
    simp only [exec, execEvtRxdAck, hstore (s.enterHandlerRx sr dr) h]
    exact congrArg _ (hack (s.enterHandlerRx sr dr).putRx h1)
  case rxNack sr dr h h1 =>
    simp only [exec, execEvtRxdAck, hstore (s.enterHandlerRx sr dr) h]
    exact congrArg _ (hnack (s.enterHandlerRx sr dr).putRx h1)
  case rxStart sr dr h hr =>
    simp only [exec, execEvtRxdNack, hstore (s.enterHandlerRx sr dr) h]
    exact congrArg _ (hstart (s.enterHandlerRx sr dr).putRx _ hr)
  case rxStop sr dr h hr =>
    simp only [exec, execEvtRxdNack, hstore (s.enterHandlerRx sr dr) h]
    exact congrArg _ (hstop (s.enterHandlerRx sr dr).putRx _ hr)
  case failStart sr hi hr => rcases hi with rfl | rfl | rfl | rfl <;> exact congrArg _ (hstart (s.enterHandler sr) _ hr)
  case failStop sr hi hr => rcases hi with rfl | rfl | rfl | rfl <;> exact congrArg _ (hstop (s.enterHandler sr) _ hr)
  all_goals rfl

/-- `exec` answers a next state exactly as listed. -/
theorem exec_next_iff (i s t) : exec i s = .next t ↔ ExecNext i s t :=
  ⟨exec_next i s t, exec_of_execNext i s t⟩

/-- A step that answers a next state stays idle or runs one instruction, and then leaves its context. -/
theorem step_next (s t : State) (h : step s = .next t) :
    (s.inputs = [] ∧ t = s) ∨
    ∃ p q i u, s.inputs = p :: q ∧ s.Takes p ∧ decode s.cfg p = .instr i ∧ s.Launches i ∧
      exec i (s.take p q) = .next u ∧ t = u.leaveContext := by
  rcases step_cases s with ⟨a, b⟩ | ⟨p, q, r, a, b, c⟩ | ⟨p, q, r, a, b, c, d⟩ | ⟨p, q, i, r, a, b, c, e, d⟩ |
      ⟨p, q, i, a, b, c, e, d⟩
  · rw [b] at h; cases h; exact .inl ⟨a, rfl⟩
  · rw [c] at h; cases h
  · rw [d] at h; cases h
  · rw [d] at h; cases h
  · obtain ⟨u, hu, ht⟩ := (endTransaction_eq_next _ _).mp (d ▸ h)
    exact .inr ⟨p, q, i, u, a, (s.bars_eq_none_iff p).mp b, c, (s.launchBars_eq_none_iff i).mp e, hu, ht.symm⟩

/-- The induction over a step, once: what every decoded instruction keeps, and what depends neither on the transactions
still to come nor on the context nor on the run having started, every step keeps. -/
theorem step_keeps (P : State → Prop) (hq : ∀ s q c b, P s → P { s with inputs := q, context := c, started := b })
    (he : ∀ p i s t, decode s.cfg p = .instr i → P s → exec i s = .next t → P t)
    (s t : State) (hP : P s) (h : step s = .next t) : P t := by
  rcases step_next s t h with ⟨_, rfl⟩ | ⟨p, q, i, u, _, _, hd, _, hx, rfl⟩
  · exact hP
  · exact hq u u.inputs none u.started (he p i (s.take p q) u hd (hq s q _ _ hP) hx)

/-- When an instruction faults: a receive store out of range, or a staged byte out of range (log 12). -/
theorem exec_fault (i : Instr) (s : State) (f : Fault) (h : exec i s = .fault f) :
    (s.cfg.rxMaxLen ≤ s.rxidx.toNat ∧ f = .rxOverrun s.rxidx.toNat ∧
      ∃ sr dr, i = .evtRxdAck sr dr ∨ i = .evtRxdNack sr dr) ∨
    (s.cfg.txMaxLen ≤ s.txidx.toNat ∧ s.txidx.toNat < s.txlen.toNat) ∨ s.cfg.txMaxLen = 0 := by
  have htx : ∀ (u : State), u.txidx = s.txidx → u.txlen = s.txlen → u.cfg = s.cfg → u.txStep = .fault f →
      s.cfg.txMaxLen ≤ s.txidx.toNat ∧ s.txidx.toNat < s.txlen.toNat := by
    intro u h1 h2 h3 hu
    rcases u.txStep_cases with ⟨_, _, c⟩ | ⟨a, b, _⟩ | ⟨_, b⟩
    · rw [c] at hu; cases hu
    · rw [h1, h3] at b
      rw [h1, h2] at a
      exact ⟨b, a⟩
    · rw [b] at hu; cases hu
  have hcmd : ∀ (u : State) rs d, u.cfg = s.cfg → u.transmitCommand rs d = .fault f → s.cfg.txMaxLen = 0 := by
    intro u rs d h1 hu
    rcases u.transmitCommand_cases rs d with ⟨_, b⟩ | ⟨_, _, b⟩ | ⟨_, _, b⟩ | ⟨_, _, _, b⟩ | ⟨_, _, b, _⟩
    · rw [b] at hu; cases hu
    · rw [b] at hu; cases hu
    · rw [b] at hu; cases hu
    · rw [b] at hu; cases hu
    · rw [← h1]; exact b
  cases i
  case transmit rs d => exact .inr (.inr (hcmd s rs d rfl h))
  case read rs a n =>
    simp only [exec, execRead] at h
    split at h
    · cases h
    · split at h
      · cases h
      · exact .inr (.inr (hcmd (s.setRx 0#8 n) rs _ rfl h))
  case getrxbyte k =>
    simp only [exec, execGetrxbyte] at h
    split at h <;> cases h
  case evtStart sr => exact .inr (.inl (htx (s.enterHandler sr) rfl rfl rfl h))
  case evtSlawAck sr => exact .inr (.inl (htx ((s.enterHandler sr).setMode .masterTransmitter) rfl rfl rfl h))
  case evtTxdAck sr => exact .inr (.inl (htx (s.enterHandler sr) rfl rfl rfl h))
  case evtRxdAck sr dr =>
    simp only [exec, execEvtRxdAck] at h
    rcases (s.enterHandlerRx sr dr).rxStore_cases with ⟨_, b⟩ | ⟨a, b⟩ <;> rw [b] at h <;> cases h
    exact .inl ⟨by simpa using a, rfl, sr, dr, .inl rfl⟩
  case evtRxdNack sr dr =>
    simp only [exec, execEvtRxdNack] at h
    rcases (s.enterHandlerRx sr dr).rxStore_cases with ⟨_, b⟩ | ⟨a, b⟩ <;> rw [b] at h <;> cases h
    exact .inl ⟨by simpa using a, rfl, sr, dr, .inr rfl⟩
  all_goals cases h

/-- When an instruction is refused (spec/30_encoding.md R73). -/
theorem exec_refused (i : Instr) (s : State) (r : Refusal) (h : exec i s = .refused r) :
    (∃ op ops, i = .cmdReserved op ops ∧ r = .reservedCommand op) ∨
    (∃ k, i = .getrxbyte k ∧ s.cfg.rxMaxLen ≤ k.toNat ∧ r = .rxIndexOutOfRange k) := by
  have htx : ∀ u : State, u.txStep ≠ .refused r := by
    intro u hu
    rcases u.txStep_cases with ⟨_, _, c⟩ | ⟨_, _, c⟩ | ⟨_, c⟩ <;> rw [c] at hu <;> cases hu
  have hcmd : ∀ (u : State) rs d, u.transmitCommand rs d ≠ .refused r := by
    intro u rs d hu
    rcases u.transmitCommand_cases rs d with ⟨_, b⟩ | ⟨_, _, b⟩ | ⟨_, _, b⟩ | ⟨_, _, _, b⟩ | ⟨_, _, _, b⟩ <;>
      rw [b] at hu <;> cases hu
  cases i
  case cmdReserved op ops => cases h; exact .inl ⟨op, ops, rfl, rfl⟩
  case getrxbyte k =>
    simp only [exec, execGetrxbyte, State.readRx] at h
    split at h
    · cases h
    · next hk =>
      cases h
      refine .inr ⟨k, rfl, ?_, rfl⟩
      by_contra hc
      simp [Nat.lt_of_not_le hc] at hk
  case transmit rs d => exact absurd h (hcmd s rs d)
  case read rs a n =>
    simp only [exec, execRead] at h
    split at h
    · cases h
    · split at h
      · cases h
      · exact absurd h (hcmd _ rs _)
  case evtStart sr => exact absurd h (htx _)
  case evtSlawAck sr => exact absurd h (htx _)
  case evtTxdAck sr => exact absurd h (htx _)
  case evtRxdAck sr dr => simp only [exec, execEvtRxdAck] at h; split at h <;> cases h
  case evtRxdNack sr dr => simp only [exec, execEvtRxdNack] at h; split at h <;> cases h
  all_goals cases h

end Sys2Proof.Machine
end

