-- ==== Sys2Proof/Laws/PerInstr.lean ====
section
/-! SUPPORT. Statements made for every instruction, one lemma per constructor. PortAndHead: an instruction is encoded
at the interface its row of spec/opcode_table.json names, and with that row's opcode, status or control word. -/

namespace Sys2Proof.Laws.PortAndHead

/-- What a row of the opcode table fixes of an encoding. -/
inductive Head where
  | opcode (op : Byte)
  | reserved (op : Byte)
  | status (st : Status)
  | unlisted
  | control (staged : Bool) (w : ControlWord)
  | reset

/-- The row of each instruction. -/
def headOf : Instr → Head
  | .init => .opcode 0x00#8
  | .isready => .opcode 0x01#8
  | .transmit _ _ => .opcode 0x02#8
  | .read _ _ _ => .opcode 0x03#8
  | .geterr => .opcode 0x04#8
  | .getrxlen => .opcode 0x05#8
  | .getrxbyte _ => .opcode 0x06#8
  | .cmdReserved op _ => .reserved op
  | .evtBuserr _ => .status .buserr
  | .evtStart _ => .status .start
  | .evtRstart _ => .status .rstart
  | .evtSlawAck _ => .status .slawAck
  | .evtSlawNack _ => .status .slawNack
  | .evtTxdAck _ => .status .txdAck
  | .evtTxdNack _ => .status .txdNack
  | .evtArbLost _ => .status .arbLost
  | .evtSlarAck _ => .status .slarAck
  | .evtSlarNack _ => .status .slarNack
  | .evtRxdAck _ _ => .status .rxdAck
  | .evtRxdNack _ _ => .status .rxdNack
  | .evtNoinfo _ => .status .noinfo
  | .evtUnlisted _ => .unlisted
  | .sendStart => .control false cwStart
  | .sendStop => .control false cwStop
  | .sendTransmit _ => .control true cwXmit
  | .sendAck => .control false cwAck
  | .sendNack => .control false cwNack
  | .initCw => .control false cwEnable
  | .reset => .reset

/-- A packet shows what its row fixes. -/
def Shows (c : Config) : Packet → Head → Prop
  | .cmd (op :: _), .opcode op' => op = op'
  | .cmd (op :: _), .reserved op' => op = op' ∧ 7 ≤ op.toNat
  | .evt sr _, .status st => carries c st sr
  | .evt sr _, .unlisted => ∀ st ∈ Status.all, ¬ carries c st sr
  | .prim stage cr, .control staged w => stage.isSome = staged ∧ cr = packControl c.crLayout w
  | .reset, .reset => True
  | _, _ => False

/-- A well-formed instruction is encoded as its row says. -/
def Statement (i : Instr) : Prop := ∀ c : Config, i.wf c = true → Shows c (encode c i) (headOf i)

theorem init : Statement .init :=
  fun _ _ => rfl

theorem isready : Statement .isready :=
  fun _ _ => rfl

theorem transmit (rs : Bool) (data : List Byte) : Statement (.transmit rs data) :=
  fun _ _ => rfl

theorem read (rs : Bool) (addr : BitVec 7) (n : Byte) : Statement (.read rs addr n) :=
  fun _ _ => rfl

theorem geterr : Statement .geterr :=
  fun _ _ => rfl

theorem getrxlen : Statement .getrxlen :=
  fun _ _ => rfl

theorem getrxbyte (i : Byte) : Statement (.getrxbyte i) :=
  fun _ _ => rfl

theorem cmdReserved (op : Byte) (operands : List Byte) : Statement (.cmdReserved op operands) :=
  fun _ h => ⟨rfl, of_decide_eq_true (p := 7 ≤ op.toNat) h⟩

theorem evtBuserr (sr : Byte) : Statement (.evtBuserr sr) :=
  fun c h => of_decide_eq_true (p := carries c .buserr sr) h

theorem evtStart (sr : Byte) : Statement (.evtStart sr) :=
  fun c h => of_decide_eq_true (p := carries c .start sr) h

theorem evtRstart (sr : Byte) : Statement (.evtRstart sr) :=
  fun c h => of_decide_eq_true (p := carries c .rstart sr) h

theorem evtSlawAck (sr : Byte) : Statement (.evtSlawAck sr) :=
  fun c h => of_decide_eq_true (p := carries c .slawAck sr) h

theorem evtSlawNack (sr : Byte) : Statement (.evtSlawNack sr) :=
  fun c h => of_decide_eq_true (p := carries c .slawNack sr) h

theorem evtTxdAck (sr : Byte) : Statement (.evtTxdAck sr) :=
  fun c h => of_decide_eq_true (p := carries c .txdAck sr) h

theorem evtTxdNack (sr : Byte) : Statement (.evtTxdNack sr) :=
  fun c h => of_decide_eq_true (p := carries c .txdNack sr) h

theorem evtArbLost (sr : Byte) : Statement (.evtArbLost sr) :=
  fun c h => of_decide_eq_true (p := carries c .arbLost sr) h

theorem evtSlarAck (sr : Byte) : Statement (.evtSlarAck sr) :=
  fun c h => of_decide_eq_true (p := carries c .slarAck sr) h

theorem evtSlarNack (sr : Byte) : Statement (.evtSlarNack sr) :=
  fun c h => of_decide_eq_true (p := carries c .slarNack sr) h

theorem evtRxdAck (sr : Byte) (dr : Byte) : Statement (.evtRxdAck sr dr) :=
  fun c h => of_decide_eq_true (p := carries c .rxdAck sr) h

theorem evtRxdNack (sr : Byte) (dr : Byte) : Statement (.evtRxdNack sr dr) :=
  fun c h => of_decide_eq_true (p := carries c .rxdNack sr) h

theorem evtNoinfo (sr : Byte) : Statement (.evtNoinfo sr) :=
  fun c h => of_decide_eq_true (p := carries c .noinfo sr) h

theorem evtUnlisted (sr : Byte) : Statement (.evtUnlisted sr) :=
  fun c h => of_decide_eq_true (p := ∀ st ∈ Status.all, ¬ carries c st sr) h

theorem sendStart : Statement .sendStart :=
  fun _ _ => ⟨rfl, rfl⟩

theorem sendStop : Statement .sendStop :=
  fun _ _ => ⟨rfl, rfl⟩

theorem sendTransmit (b : Byte) : Statement (.sendTransmit b) :=
  fun _ _ => ⟨rfl, rfl⟩

theorem sendAck : Statement .sendAck :=
  fun _ _ => ⟨rfl, rfl⟩

theorem sendNack : Statement .sendNack :=
  fun _ _ => ⟨rfl, rfl⟩

theorem initCw : Statement .initCw :=
  fun _ _ => ⟨rfl, rfl⟩

theorem reset : Statement .reset :=
  fun _ _ => trivial

end Sys2Proof.Laws.PortAndHead
end

