-- ==== Sys2Proof/Tests/Slice0.lean ====
section
/-! SUPPORT. Tests of the model's own text: ill-formed instructions are refused by WellFormed; one word per constructor
written out by hand decodes to it; one step per instruction gives what spec/95_test_vectors.md says (VP, VC, VE, T name
its vectors); and every hypothesis of a statement is met by a concrete state (witness_…). -/

open Sys2Proof Sys2Proof.Machine Sys2Proof.Certificates

namespace Sys2Proof.Tests

/-! ### Helpers -/

/-- The next state, if the answer is one. -/
def nextOf (o : Machine.Outcome) : Option State :=
  match o with
  | .next t => some t
  | .fault _ => none
  | .refused _ => none

/-- The fault, if the answer is one. -/
def faultOf (o : Machine.Outcome) : Option Fault :=
  match o with
  | .next _ => none
  | .fault f => some f
  | .refused _ => none

/-- The refusal, if the answer is one. -/
def refusalOf (o : Machine.Outcome) : Option Refusal :=
  match o with
  | .next _ => none
  | .fault _ => none
  | .refused r => some r

/-- A `PeriphWrite` as bytes under the default `CR_LAYOUT`: the register's tag (0 CR, 1 DR, 2 BR) and the value. -/
def writeBytes : PeriphWrite → Nat × Nat
  | .cr w => (0, (packControl CrLayout.default w).toNat)
  | .dr b => (1, b.toNat)
  | .br v => (2, v)

/-- The writes of the trace after a step. -/
def writesOf (o : Machine.Outcome) : Option (List (Nat × Nat)) := (nextOf o).map fun t => t.trace.map writeBytes

/-- The answer is a next state with a property. -/
def nextWith (o : Machine.Outcome) (p : State → Bool) : Bool :=
  match o with
  | .next t => p t
  | .fault _ => false
  | .refused _ => false

/-- Decoding under the default parameters. -/
def dec (p : Packet) : Decoded := decode Config.default p

/-- The state after reset with the capacities of a vector. -/
def sized (tx rx : Nat) : State := State.resetWith { Config.default with txMaxLen := tx, rxMaxLen := rx }

/-- The state after reset, in a given mode. -/
def inMode (m : Mode) : State := { State.reset with mode := m }

/-! ### WellFormed -/

/-- TRANSMIT's length operand is one byte. -/
theorem test_wf_transmit_too_long : (Instr.transmit false (List.replicate 256 0#8)).wf Config.default = false := by
  simp only [Instr.wf, List.length_replicate]
  decide

theorem test_wf_transmit_longest : (Instr.transmit false (List.replicate 255 0#8)).wf Config.default = true := by
  simp only [Instr.wf, List.length_replicate]
  decide

/-- The seven opcodes are not reserved. -/
theorem test_wf_reserved : (Instr.cmdReserved 0x06#8 []).wf Config.default = false ∧
    (Instr.cmdReserved 0x07#8 []).wf Config.default = true := by decide

/-- An event's status must be its rule's. -/
theorem test_wf_events :
    [Instr.evtBuserr 0x08#8, .evtStart 0x10#8, .evtRstart 0x08#8, .evtSlawAck 0x20#8, .evtSlawNack 0x18#8,
      .evtTxdAck 0x30#8, .evtTxdNack 0x28#8, .evtArbLost 0x40#8, .evtSlarAck 0x48#8, .evtSlarNack 0x40#8,
      .evtRxdAck 0x58#8 0#8, .evtRxdNack 0x50#8 0#8, .evtNoinfo 0x00#8, .evtUnlisted 0x0F#8].all
      (fun i => i.wf Config.default) = false ∧
    [Instr.evtBuserr 0x08#8, .evtStart 0x10#8, .evtRstart 0x08#8, .evtSlawAck 0x20#8, .evtSlawNack 0x18#8,
      .evtTxdAck 0x30#8, .evtTxdNack 0x28#8, .evtArbLost 0x40#8, .evtSlarAck 0x48#8, .evtSlarNack 0x40#8,
      .evtRxdAck 0x58#8 0#8, .evtRxdNack 0x50#8 0#8, .evtNoinfo 0x00#8, .evtUnlisted 0x0F#8].any
      (fun i => i.wf Config.default) = false := by decide

/-! ### Decoding: a word by hand for every constructor (spec/30_encoding.md R58, R59, R66, R71) -/

theorem test_decode_init : dec (.cmd [0x00#8]) = .instr .init := by decide
theorem test_decode_isready : dec (.cmd [0x01#8]) = .instr .isready := by decide
/-- VC4. -/
theorem test_decode_transmit : dec (.cmd [0x02#8, 0x00#8, 0x04#8, 0x01#8, 0x02#8, 0x03#8, 0x04#8]) =
    .instr (.transmit false [1#8, 2#8, 3#8, 4#8]) := by decide
/-- VC12 and VC13. -/
theorem test_decode_read : dec (.cmd [0x03#8, 0x01#8, 0x00#8, 0x01#8]) = .instr (.read true 0x00#7 1#8) ∧
    dec (.cmd [0x03#8, 0x00#8, 0x7F#8, 0x02#8]) = .instr (.read false 0x7F#7 2#8) := by decide
theorem test_decode_geterr : dec (.cmd [0x04#8]) = .instr .geterr := by decide
theorem test_decode_getrxlen : dec (.cmd [0x05#8]) = .instr .getrxlen := by decide
/-- VC20. -/
theorem test_decode_getrxbyte : dec (.cmd [0x06#8, 0x13#8]) = .instr (.getrxbyte 0x13#8) := by decide
/-- VC22. -/
theorem test_decode_cmdReserved : dec (.cmd [0x07#8]) = .instr (.cmdReserved 0x07#8 []) ∧
    dec (.cmd [0xFF#8]) = .instr (.cmdReserved 0xFF#8 []) := by decide
theorem test_decode_evtBuserr : dec (.evt 0b00000_101#8 0#8) = .instr (.evtBuserr 0x05#8) := by decide
/-- VE23. -/
theorem test_decode_evtStart : dec (.evt 0b00001_011#8 0#8) = .instr (.evtStart 0x0B#8) := by decide
theorem test_decode_evtRstart : dec (.evt 0b00010_000#8 0#8) = .instr (.evtRstart 0x10#8) := by decide
theorem test_decode_evtSlawAck : dec (.evt 0b00011_000#8 0#8) = .instr (.evtSlawAck 0x18#8) := by decide
/-- VE24. -/
theorem test_decode_evtSlawNack : dec (.evt 0b00100_011#8 0#8) = .instr (.evtSlawNack 0x23#8) := by decide
theorem test_decode_evtTxdAck : dec (.evt 0b00101_000#8 0#8) = .instr (.evtTxdAck 0x28#8) := by decide
theorem test_decode_evtTxdNack : dec (.evt 0b00110_000#8 0#8) = .instr (.evtTxdNack 0x30#8) := by decide
theorem test_decode_evtArbLost : dec (.evt 0b00111_000#8 0#8) = .instr (.evtArbLost 0x38#8) := by decide
theorem test_decode_evtSlarAck : dec (.evt 0b01000_000#8 0#8) = .instr (.evtSlarAck 0x40#8) := by decide
theorem test_decode_evtSlarNack : dec (.evt 0b01001_000#8 0#8) = .instr (.evtSlarNack 0x48#8) := by decide
/-- VE8. -/
theorem test_decode_evtRxdAck : dec (.evt 0b01010_000#8 0x11#8) = .instr (.evtRxdAck 0x50#8 0x11#8) := by decide
/-- VE10. -/
theorem test_decode_evtRxdNack : dec (.evt 0b01011_000#8 0x33#8) = .instr (.evtRxdNack 0x58#8 0x33#8) := by decide
theorem test_decode_evtNoinfo : dec (.evt 0b11111_000#8 0#8) = .instr (.evtNoinfo 0xF8#8) := by decide
/-- VE22. -/
theorem test_decode_evtUnlisted : dec (.evt 0x60#8 0#8) = .instr (.evtUnlisted 0x60#8) ∧
    dec (.evt 0xA8#8 0#8) = .instr (.evtUnlisted 0xA8#8) ∧ dec (.evt 0xF0#8 0#8) = .instr (.evtUnlisted 0xF0#8) := by
  decide
/-- VP1. -/
theorem test_decode_sendStart : dec (.prim none 0b10100101#8) = .instr .sendStart := by decide
/-- VP2. -/
theorem test_decode_sendStop : dec (.prim none 0b10010101#8) = .instr .sendStop := by decide
/-- VP3. -/
theorem test_decode_sendTransmit : dec (.prim (some 0x3C#8) 0b10000101#8) = .instr (.sendTransmit 0x3C#8) := by decide
/-- VP4. -/
theorem test_decode_sendAck : dec (.prim none 0b11000101#8) = .instr .sendAck := by decide
/-- VP5. -/
theorem test_decode_sendNack : dec (.prim none 0b10000101#8) = .instr .sendNack := by decide
/-- VP6. -/
theorem test_decode_initCw : dec (.prim none 0b00000101#8) = .instr .initCw := by decide
theorem test_decode_reset : dec .reset = .instr .reset := by decide

/-- The malformed frames of spec/30_encoding.md R73, by name (the last two of VC22's list first). -/
theorem test_reject_malformed :
    dec (.cmd [0x02#8, 0x02#8, 0x00#8]) = .reject (.reservedFlags 0x02#8) ∧
    dec (.cmd [0x03#8, 0x00#8, 0x80#8, 0x01#8]) = .reject (.reservedAddress 0x80#8) ∧
    dec (.cmd [0x03#8, 0x00#8, 0x50#8]) = .reject (.shortFrame 0x03#8) ∧
    dec (.cmd []) = .reject .emptyFrame ∧
    dec (.cmd [0x00#8, 0x00#8]) = .reject (.longFrame 0x00#8) ∧
    dec (.cmd [0x02#8, 0x00#8, 0x02#8, 0x01#8]) = .reject (.shortFrame 0x02#8) ∧
    dec (.cmd [0x02#8, 0x00#8, 0x00#8, 0x01#8]) = .reject (.longFrame 0x02#8) ∧
    dec (.cmd [0x03#8, 0x00#8, 0x50#8, 0x01#8, 0x00#8]) = .reject (.longFrame 0x03#8) ∧
    dec (.cmd [0x06#8]) = .reject (.shortFrame 0x06#8) ∧
    dec (.cmd [0x06#8, 0x00#8, 0x00#8]) = .reject (.longFrame 0x06#8) := by decide

/-- A primitive that is none of spec/30_encoding.md R71's. -/
theorem test_reject_primitive : dec (.prim none 0x25#8) = .reject (.badPrimitive 0x25#8) ∧
    dec (.prim (some 0x00#8) 0xA5#8) = .reject (.badPrimitive 0xA5#8) := by decide

/-- Words of the opcode table, numbered from the first byte's bit 0 (log 19). -/
theorem test_table_words :
    decodeTableWord 8 0x00 = some .init ∧ decodeTableWord 8 0x02 = some (.transmit false []) ∧
    decodeTableWord 40 0x2211020002 = some (.transmit false [0x11#8, 0x22#8]) ∧
    decodeTableWord 8 0x58 = some (.evtRxdNack 0x58#8 0#8) ∧ decodeTableWord 16 0x3358 = some (.evtRxdNack 0x58#8 0x33#8) ∧
    decodeTableWord 8 0xA5 = some .sendStart ∧ decodeTableWord 16 0x3C85 = some (.sendTransmit 0x3C#8) ∧
    decodeTableWord 8 0x85 = some .sendNack ∧ decodeTableWord 8 0x60 = some (.evtUnlisted 0x60#8) := by decide

/-- A word longer than its opcode's frame is a frame that is too long, and refused (spec/30_encoding.md R73, log 23). -/
theorem test_table_word_too_long :
    decodeTableWord 16 0x0000 = none ∧ decodeTableWord 24 0x000006 = none ∧ decodeTableWord 48 0x332211020002 = none := by
  decide

/-- A table word presented after reset is what the next step runs. -/
theorem test_step_runs_table_word :
    (nextOf (step (State.reset.withFetchWord 8 0x01))).map (fun t => (t.results, t.inputs)) = some ([0x01#8], []) := by
  decide

/-- A primitive's table word is presented inside a host command, where the next step runs it (log 9, log 19). -/
theorem test_step_runs_primitive_word :
    writesOf (step (State.reset.withFetchWord 8 0xA5)) = some [(0, 0xA5)] ∧
    (nextOf (step (State.reset.withFetchWord 8 0xA5))).map (·.context) = some none := by decide

/-- A command's table word is presented under the launch premise, and runs wherever the run is (log 19, log 26). -/
theorem test_step_runs_command_words :
    [0x00, 0x01, 0x02, 0x04, 0x05].map (fun w => (nextOf (step (State.reset.withFetchWord 8 w))).isSome) =
      List.replicate 5 true ∧
    (nextOf (step ((inMode .masterReceiver).withFetchWord 8 0x00))).map (·.mode) = some .ready := by decide

/-- A primitive on its own is refused (spec/40_primitives.md R78), INIT's control word too. -/
theorem test_primitive_alone :
    refusalOf (step (State.reset.present (.prim none 0xA5#8))) = some .primitiveAlone ∧
    refusalOf (step (State.reset.present (.prim none 0x05#8))) = some .primitiveAlone := by decide

/-- No command, event or reset begins inside a transaction (spec/20_memory.md R45, spec/60_exceptions.md R145). -/
theorem test_inside_transaction :
    [Packet.cmd [0x01#8], .evt 0x08#8 0#8, .reset].map (fun p =>
      refusalOf (step (({ State.reset with context := some .handler } : State).present p))) =
    [some .insideTransaction, some .insideTransaction, some .insideTransaction] := by decide

/-- A reset is taken as the first transaction of a run, and refused after another one, a reset too
(spec/70_reset_and_hazards.md R155). -/
theorem test_reset_first_only :
    (nextOf (step (State.reset.present .reset))).map (fun t => (t.mode, t.started)) = some (.ready, true) ∧
    refusalOf (Host.Core.run core 2 { State.reset with inputs := [.cmd [0x00#8], .reset] }) = some .resetInRun ∧
    refusalOf (Host.Core.run core 2 { State.reset with inputs := [.reset, .reset] }) = some .resetInRun := by decide

/-- INIT is taken in `Ready`, again too, and in no other mode (spec/41_host_commands.md R86 (b), (c);
spec/93_implementation_defined.md U7). -/
theorem test_init_only_when_idle :
    (nextOf (Host.Core.run core 2 { State.reset with inputs := [.cmd [0x00#8], .cmd [0x00#8]] })).map (·.results) =
      some [0x00#8, 0x00#8] ∧
    [Mode.initializing, .masterTransmitter, .masterReceiver, .repeatedStartSent].map
      (fun m => refusalOf (step ((inMode m).present (.cmd [0x00#8])))) = List.replicate 4 (some .initNotIdle) := by decide

/-- No other command is taken before INIT (spec/70_reset_and_hazards.md R157, spec/93_implementation_defined.md U8), a
RESET before it or not, and after INIT one is. -/
theorem test_commands_after_init :
    [[0x01#8], [0x02#8, 0#8, 0#8], [0x03#8, 0#8, 0x50#8, 3#8], [0x04#8], [0x05#8], [0x06#8, 0#8]].map
      (fun f => refusalOf (step (State.reset.present (.cmd f)))) = List.replicate 6 (some .beforeInit) ∧
    refusalOf (Host.Core.run core 2 { State.reset with inputs := [.reset, .cmd [0x01#8]] }) = some .beforeInit ∧
    (nextOf (Host.Core.run core 3 { State.reset with inputs := [.reset, .cmd [0x00#8], .cmd [0x01#8]] })).map (·.results) =
      some [0x00#8, 0x01#8] := by decide

/-- With nothing presented a step changes nothing. -/
theorem test_step_idle : nextOf (step State.reset) = some State.reset := by decide

/-! ### Commands -/

/-- VC2. -/
theorem test_init :
    (nextOf (exec .init { inMode .masterReceiver with err := 0x48#8, rs := true, rxidx := 2#8 })).map
      (fun t => (t.mode, t.err, t.rs, t.rxidx, t.results)) = some (.ready, 0xFF#8, false, 2#8, [0x00#8]) ∧
    writesOf (exec .init (inMode .masterReceiver)) = some [(2, 0), (0, 0x05)] := by decide

/-- VC3. -/
theorem test_isready :
    [Mode.ready, .initializing, .masterTransmitter, .masterReceiver, .repeatedStartSent].map
      (fun m => (nextOf (exec .isready (inMode m))).map (·.results)) =
    [some [1#8], some [0#8], some [0#8], some [0#8], some [1#8]] := by decide

/-- VC8. -/
theorem test_transmit_held :
    nextWith (exec (.transmit false [0xA0#8, 0x00#8]) { inMode .repeatedStartSent with
        err := 0x30#8, txbuf := [(0, 0xA0#8), (1, 0x10#8), (2, 0x55#8), (3, 0x66#8)], txlen := 4#8, txidx := 2#8,
        rs := true })
      (fun t => t.txbuf == [(0, 0xA0#8), (2, 0x55#8), (3, 0x66#8)] && t.txlen == 2#8 && t.txidx == 1#8 && !t.rs &&
        t.mode == .initializing && t.err == 0x30#8 && t.trace.map writeBytes == [(1, 0xA0), (0, 0x85)]) = true := by
  decide

/-- VC7: TooLong is tested first. -/
theorem test_transmit_too_long :
    nextWith (exec (.transmit false [1#8, 2#8, 3#8, 4#8, 5#8]) { sized 4 4 with mode := .initializing })
      (fun t => t.results == [0x01#8] && t.mode == .initializing && t.txbuf == [] && t.trace == []) = true := by decide

/-- VC13. -/
theorem test_read_held :
    nextWith (exec (.read false 0x7F#7 2#8) (inMode .repeatedStartSent))
      (fun t => t.txbuf == [(0, 0xFF#8)] && t.txlen == 1#8 && t.txidx == 1#8 && t.rxlen == 2#8 && t.rxidx == 0#8 &&
        t.mode == .initializing && t.trace.map writeBytes == [(1, 0xFF), (0, 0x85)]) = true := by decide

/-- VC16: nothing is written before the readiness test. -/
theorem test_read_not_ready :
    (nextOf (exec (.read false 0x50#7 2#8) { inMode .masterReceiver with rxlen := 3#8, rxidx := 1#8 })).map
      (fun t => (t.results, t.rxlen, t.rxidx, t.trace)) = some ([0x02#8], 3#8, 1#8, []) := by decide

/-- VC18. -/
theorem test_geterr : (nextOf (exec .geterr { State.reset with err := 0x38#8 })).map (·.results) = some [0x38#8] := by
  decide

/-- VC19. -/
theorem test_getrxlen :
    (nextOf (exec .getrxlen { State.reset with rxlen := 3#8, rxidx := 1#8 })).map (·.results) = some [0x03#8] := by
  decide

/-- VC20. -/
theorem test_getrxbyte :
    [2#8, 3#8, 19#8].map (fun i => (nextOf (exec (.getrxbyte i)
      { State.reset with rxbuf := [(0, 0x11#8), (1, 0x22#8), (2, 0x33#8)] })).map (·.results)) =
    [some [0x33#8], some [0x00#8], some [0x00#8]] := by decide

/-- VC21. -/
theorem test_getrxbyte_refused :
    refusalOf (exec (.getrxbyte 20#8) State.reset) = some (.rxIndexOutOfRange 20#8) := by decide

/-- VC22: a reserved opcode is refused. -/
theorem test_cmdReserved :
    refusalOf (exec (.cmdReserved 0x07#8 []) State.reset) = some (.reservedCommand 0x07#8) := by decide

/-! ### Events -/

/-- VE19: `RS` is not consulted. -/
theorem test_evtBuserr :
    (nextOf (exec (.evtBuserr 0x00#8) { inMode .masterReceiver with rs := true })).map
      (fun t => (t.mode, t.err, t.trace.map writeBytes)) = some (.ready, 0x00#8, [(0, 0x95)]) := by decide

/-- VE23 (VE1 with low status bits set): the mode stays. -/
theorem test_evtStart :
    (nextOf (exec (.evtStart 0x0B#8) { inMode .initializing with
        txbuf := [(0, 0xA0#8), (1, 0x10#8)], txlen := 2#8 })).map
      (fun t => (t.txidx, t.mode, t.err, t.trace.map writeBytes)) =
    some (1#8, .initializing, 0xFF#8, [(1, 0xA0), (0, 0x85)]) := by decide

/-- VE28: a recorded failure is overwritten. -/
theorem test_evtStart_at_end :
    (nextOf (exec (.evtStart 0x08#8) { inMode .masterTransmitter with
        txidx := 2#8, txlen := 2#8, rs := true, err := 0x38#8 })).map
      (fun t => (t.mode, t.err, t.trace.map writeBytes)) = some (.masterTransmitter, 0xFF#8, [(0, 0xA5)]) := by decide

/-- VE17. -/
theorem test_evtRstart :
    (nextOf (exec (.evtRstart 0x10#8) { inMode .initializing with err := 0x20#8 })).map
      (fun t => (t.mode, t.err, t.trace, t.evf)) = some (.repeatedStartSent, 0x20#8, [], true) := by decide

/-- VE2. -/
theorem test_evtSlawAck :
    (nextOf (exec (.evtSlawAck 0x18#8) { inMode .initializing with
        txbuf := [(0, 0xA0#8), (1, 0x10#8)], txidx := 1#8, txlen := 2#8 })).map
      (fun t => (t.txidx, t.mode, t.trace.map writeBytes)) =
    some (2#8, .masterTransmitter, [(1, 0x10), (0, 0x85)]) := by decide

/-- VE6. -/
theorem test_evtSlawAck_address_only :
    (nextOf (exec (.evtSlawAck 0x18#8) { inMode .initializing with txidx := 1#8, txlen := 1#8, rs := true })).map
      (fun t => (t.mode, t.err, t.trace.map writeBytes)) = some (.masterTransmitter, 0xFF#8, [(0, 0xA5)]) := by decide

/-- VE24: the masked status is recorded. -/
theorem test_evtSlawNack :
    (nextOf (exec (.evtSlawNack 0x23#8) (inMode .initializing))).map
      (fun t => (t.mode, t.err, t.trace.map writeBytes)) = some (.ready, 0x20#8, [(0, 0x95)]) := by decide

/-- VE3. -/
theorem test_evtTxdAck_stop :
    (nextOf (exec (.evtTxdAck 0x28#8) { inMode .masterTransmitter with
        txidx := 2#8, txlen := 2#8, err := 0x30#8 })).map
      (fun t => (t.mode, t.err, t.txidx, t.trace.map writeBytes)) = some (.ready, 0xFF#8, 2#8, [(0, 0x95)]) := by decide

/-- VE4. -/
theorem test_evtTxdAck_hold :
    (nextOf (exec (.evtTxdAck 0x28#8) { inMode .masterTransmitter with
        txidx := 2#8, txlen := 2#8, rs := true, err := 0x30#8 })).map
      (fun t => (t.mode, t.err, t.trace.map writeBytes)) = some (.masterTransmitter, 0xFF#8, [(0, 0xA5)]) := by decide

/-- VE14 (T6). -/
theorem test_evtTxdNack :
    (nextOf (exec (.evtTxdNack 0x30#8) { inMode .masterTransmitter with txidx := 2#8, txlen := 5#8 })).map
      (fun t => (t.mode, t.err, t.txidx, t.trace.map writeBytes)) = some (.ready, 0x30#8, 2#8, [(0, 0x95)]) := by decide

/-- VE15. -/
theorem test_evtArbLost :
    (nextOf (exec (.evtArbLost 0x38#8) (inMode .masterReceiver))).map
      (fun t => (t.mode, t.err, t.trace.map writeBytes)) = some (.ready, 0x38#8, [(0, 0x95)]) := by decide

/-- VE7: the comparison is on integers. -/
theorem test_evtSlarAck :
    [0#8, 1#8, 2#8, 3#8].map (fun n => (nextOf (exec (.evtSlarAck 0x40#8) { inMode .initializing with rxlen := n })).map
      (fun t => (t.mode, t.trace.map writeBytes))) =
    [some (.masterReceiver, [(0, 0x85)]), some (.masterReceiver, [(0, 0x85)]), some (.masterReceiver, [(0, 0xC5)]),
      some (.masterReceiver, [(0, 0xC5)])] := by decide

/-- VE12. -/
theorem test_evtSlarNack :
    (nextOf (exec (.evtSlarNack 0x48#8) (inMode .initializing))).map
      (fun t => (t.mode, t.err, t.trace.map writeBytes)) = some (.ready, 0x48#8, [(0, 0x95)]) := by decide

/-- VE9. -/
theorem test_evtRxdAck :
    (nextOf (exec (.evtRxdAck 0x50#8 0x22#8) { inMode .masterReceiver with rxidx := 1#8, rxlen := 3#8 })).map
      (fun t => (t.rxbuf, t.rxidx, t.trace.map writeBytes)) = some ([(1, 0x22#8)], 2#8, [(0, 0x85)]) := by decide

/-- VE26. -/
theorem test_evtRxdAck_overrun :
    faultOf (exec (.evtRxdAck 0x50#8 0x01#8) { sized 4 4 with rxidx := 4#8 }) = some (.rxOverrun 4) ∧
    faultOf (exec (.evtRxdNack 0x58#8 0x01#8) { sized 4 4 with rxidx := 4#8 }) = some (.rxOverrun 4) := by decide

/-- VE11: `ERR` is cleared on the repeated-start branch too. -/
theorem test_evtRxdNack_hold :
    nextWith (exec (.evtRxdNack 0x58#8 0x33#8) { inMode .masterReceiver with
        rxidx := 2#8, rxlen := 3#8, rs := true, err := 0x20#8 })
      (fun t => t.rxbuf == [(2, 0x33#8)] && t.rxidx == 3#8 && t.mode == .masterReceiver && t.err == 0xFF#8 &&
        t.trace.map writeBytes == [(0, 0xA5)]) = true := by decide

/-- VE27: the last cell. -/
theorem test_evtRxdNack_last_cell :
    nextWith (exec (.evtRxdNack 0x58#8 0x44#8) { sized 4 4 with rxidx := 3#8, rxlen := 4#8 })
      (fun t => t.rxbuf == [(3, 0x44#8)] && t.rxidx == 4#8 && t.mode == .ready && t.err == 0xFF#8 &&
        t.trace.map writeBytes == [(0, 0x95)]) = true := by decide

/-- VE21. -/
theorem test_evtNoinfo :
    (nextOf (exec (.evtNoinfo 0xF8#8) { inMode .masterTransmitter with err := 0x30#8 })).map
      (fun t => (t.mode, t.err, t.trace, t.evf)) = some (.masterTransmitter, 0x30#8, [], true) := by decide

/-- VE22. -/
theorem test_evtUnlisted :
    (nextOf (exec (.evtUnlisted 0x60#8) (inMode .initializing))).map (fun t => (t.mode, t.err, t.trace)) =
    some (.initializing, 0xFF#8, []) := by decide

/-! ### Primitives and reset -/

/-- VP1. -/
theorem test_sendStart : writesOf (exec .sendStart State.reset) = some [(0, 0xA5)] := by decide
/-- VP2. -/
theorem test_sendStop : writesOf (exec .sendStop State.reset) = some [(0, 0x95)] := by decide
/-- VP3. -/
theorem test_sendTransmit : writesOf (exec (.sendTransmit 0x3C#8) State.reset) = some [(1, 0x3C), (0, 0x85)] := by decide
/-- VP4. -/
theorem test_sendAck : writesOf (exec .sendAck State.reset) = some [(0, 0xC5)] := by decide
/-- VP5. -/
theorem test_sendNack : writesOf (exec .sendNack State.reset) = some [(0, 0x85)] := by decide
/-- VP6: `evack = 0`, so EVF stays (spec/10_state.md R33). -/
theorem test_initCw : writesOf (exec .initCw State.reset) = some [(0, 0x05)] ∧
    (nextOf (exec .initCw { State.reset with evf := true })).map (·.evf) = some true := by decide
/-- spec/70_reset_and_hazards.md R153. -/
theorem test_reset :
    nextWith (exec .reset { inMode .masterReceiver with
        err := 0x38#8, rxbuf := [(0, 1#8)], rxlen := 3#8, evf := true, trace := [.cr cwStart] })
      (fun t => t.mode == .ready && t.err == 0xFF#8 && t.rxbuf == [] && t.rxlen == 0#8 && !t.evf && t.trace == []) =
    true := by decide

/-! ### Witnesses: the hypotheses of every statement can be met, clause by clause at the ends of its ranges -/

/-- A frame presented when INIT has run. -/
def given (f : List Byte) : State := ({ State.reset with initialised := true } : State).present (.cmd f)

theorem witness_DecodeOfEncodeIsIdentity :
    Config.default.Wf ∧
    [Instr.init, .isready, .transmit true [], .read true 0x7F#7 0xFF#8, .geterr, .getrxlen, .getrxbyte 0xFF#8,
      .cmdReserved 0x07#8 [0#8], .cmdReserved 0xFF#8 [], .evtBuserr 0x07#8, .evtStart 0x0F#8, .evtRstart 0x17#8,
      .evtSlawAck 0x1F#8, .evtSlawNack 0x27#8, .evtTxdAck 0x2F#8, .evtTxdNack 0x37#8, .evtArbLost 0x3F#8,
      .evtSlarAck 0x47#8, .evtSlarNack 0x4F#8, .evtRxdAck 0x57#8 0xFF#8, .evtRxdNack 0x5F#8 0xFF#8, .evtNoinfo 0xFF#8,
      .evtUnlisted 0x60#8, .sendStart, .sendStop, .sendTransmit 0xFF#8, .sendAck, .sendNack, .initCw, .reset].all
      (fun i => i.wf Config.default) = true := by decide

theorem witness_DecodedFrameIsTheEncoding :
    decode Config.default (.cmd [0x02#8, 0x01#8, 0x01#8, 0xA0#8]) = .instr (.transmit true [0xA0#8]) := by decide

/-- Every clause of the statement, with the low status bits set. -/
theorem witness_MaskedStatusSelectsTheRule :
    Config.default.Wf ∧
    (∀ st ∈ Status.all,
      (StatusEnc.default.code st ||| 0x07#8) &&& Config.default.statusMask = Config.default.statusEnc.code st) ∧
    (∀ st ∈ Status.all, 0x67#8 &&& Config.default.statusMask ≠ Config.default.statusEnc.code st) := by decide

theorem witness_ExactlyTheListedFramesAreRefused :
    (given [0x07#8]).context = none ∧ Refusable (given [0x07#8]).cfg [0x07#8] ∧
    ¬ BreaksLaunchPremise (given [0x07#8]) [0x07#8] ∧ ∃ r, step (given [0x07#8]) = .refused r :=
  ⟨rfl, .inl (by decide), by decide, _, rfl⟩

/-- A frame of every clause of `Refusable`, at the ends of its ranges. -/
theorem witness_ExactlyTheListedFramesAreRefused_refused :
    [[], [0x07#8], [0xFF#8, 0#8], [0x00#8, 0#8], [0x01#8, 0#8], [0x04#8, 0#8], [0x05#8, 0#8], [0x02#8], [0x02#8, 0#8],
      [0x02#8, 0#8, 1#8], [0x02#8, 0#8, 0#8, 0#8], [0x02#8, 2#8, 0#8], [0x03#8, 0#8, 0#8], [0x03#8, 0#8, 0#8, 0#8, 0#8],
      [0x03#8, 2#8, 0#8, 0#8], [0x03#8, 0#8, 0x80#8, 0#8], [0x06#8], [0x06#8, 0#8, 0#8], [0x06#8, 20#8]].all
      (fun f => (refusalOf (step (given f))).isSome) = true := by decide

/-- A frame next to each of them that is not refused. -/
theorem witness_ExactlyTheListedFramesAreRefused_accepted :
    [[0x00#8], [0x01#8], [0x04#8], [0x05#8], [0x02#8, 0#8, 0#8], [0x02#8, 1#8, 1#8, 0#8], [0x03#8, 1#8, 0x7F#8, 0xFF#8],
      [0x06#8, 19#8]].all (fun f => (nextOf (step (given f))).isSome) = true := by decide

/-- A packet of each kind between transactions, and a primitive inside one. -/
theorem witness_StepRunsTheDecodedTransaction_run :
    ((given [0x01#8]).inputs = .cmd [0x01#8] :: [] ∧ (given [0x01#8]).context = none ∧
      decode (given [0x01#8]).cfg (.cmd [0x01#8]) = .instr .isready ∧ (given [0x01#8]).initialised = true) ∧
    ((State.reset.present (.cmd [0x00#8])).inputs = .cmd [0x00#8] :: [] ∧
      decode State.reset.cfg (.cmd [0x00#8]) = .instr .init ∧ (State.reset.present (.cmd [0x00#8])).mode = .ready) ∧
    ((State.reset.present (.cmd [0x07#8])).inputs = .cmd [0x07#8] :: [] ∧
      decode State.reset.cfg (.cmd [0x07#8]) = .instr (.cmdReserved 0x07#8 [])) ∧
    ((State.reset.present (.evt 0x08#8 0#8)).inputs = .evt 0x08#8 0#8 :: [] ∧
      decode State.reset.cfg (.evt 0x08#8 0#8) = .instr (.evtStart 0x08#8)) ∧
    ((State.reset.present .reset).inputs = .reset :: [] ∧ (State.reset.present .reset).started = false) ∧
    ((State.reset.presentReady (.prim none 0xA5#8)).inputs = .prim none 0xA5#8 :: [] ∧
      (State.reset.presentReady (.prim none 0xA5#8)).context ≠ none ∧
      decode State.reset.cfg (.prim none 0xA5#8) = .instr .sendStart) := by decide

/-- A malformed frame between transactions, and inside one a control word that is no primitive's. -/
theorem witness_StepRunsTheDecodedTransaction_reject :
    ((given []).inputs = .cmd [] :: [] ∧ (given []).context = none ∧
      decode (given []).cfg (.cmd []) = .reject .emptyFrame) ∧
    ((State.reset.presentReady (.prim none 0x25#8)).inputs = .prim none 0x25#8 :: [] ∧
      (State.reset.presentReady (.prim none 0x25#8)).context ≠ none ∧
      decode State.reset.cfg (.prim none 0x25#8) = .reject (.badPrimitive 0x25#8)) := by decide

/-- A primitive alone, a command inside a transaction, a reset in a run, INIT in `RepeatedStartSent` and ISREADY before
INIT. -/
theorem witness_StepRunsTheDecodedTransaction_barred :
    ((State.reset.present (.prim none 0xA5#8)).inputs = .prim none 0xA5#8 :: [] ∧
      (State.reset.present (.prim none 0xA5#8)).context = none) ∧
    (({ given [0x01#8] with context := some .host } : State).inputs = .cmd [0x01#8] :: [] ∧
      (∀ b w, Packet.cmd [0x01#8] ≠ .prim b w) ∧ ({ given [0x01#8] with context := some .host } : State).context ≠ none) ∧
    (({ State.reset.present .reset with started := true } : State).inputs = .reset :: [] ∧
      ({ State.reset.present .reset with started := true } : State).context = none) ∧
    (((inMode .repeatedStartSent).present (.cmd [0x00#8])).inputs = .cmd [0x00#8] :: [] ∧
      ((inMode .repeatedStartSent).present (.cmd [0x00#8])).mode ≠ .ready) ∧
    ((State.reset.present (.cmd [0x01#8])).inputs = .cmd [0x01#8] :: [] ∧
      decode State.reset.cfg (.cmd [0x01#8]) = .instr .isready ∧ State.reset.initialised = false) :=
  ⟨by decide, ⟨by decide, nofun, by decide⟩, by decide, by decide, by decide⟩

theorem witness_StepRunsTheDecodedTransaction_idle : State.reset.inputs = [] := rfl

theorem witness_IsreadyEffect :
    (inMode .ready).mode = .ready ∧ (inMode .repeatedStartSent).mode = .repeatedStartSent ∧
    Transient (inMode .initializing) ∧ Transient (inMode .masterTransmitter) ∧ Transient (inMode .masterReceiver) := by
  decide

theorem witness_GetrxbyteEffect : (19#8).toNat < State.reset.cfg.rxMaxLen ∧ State.reset.cfg.rxMaxLen ≤ (20#8).toNat := by
  decide

theorem witness_TooLongRejections :
    State.reset.cfg.txMaxLen < (List.replicate 21 0#8).length ∧ State.reset.cfg.rxMaxLen < (21#8).toNat := by decide

theorem witness_NotReadyRejections :
    Transient (inMode .masterReceiver) ∧ (List.replicate 20 0#8).length ≤ (inMode .masterReceiver).cfg.txMaxLen ∧
    (20#8).toNat ≤ (inMode .masterReceiver).cfg.rxMaxLen ∧ (19#8).toNat < (inMode .masterReceiver).cfg.rxMaxLen := by
  decide

/-- The frame's longest data, and the four clauses at 0, 20 and 21 bytes. -/
theorem witness_TransmitEffect :
    (List.replicate 255 0#8).length ≤ 255 ∧
    (∀ m, Memory.wf (inMode m).txbuf ∧ 1 ≤ (inMode m).cfg.txMaxLen ∧ ([] : List Byte).length ≤ (inMode m).cfg.txMaxLen ∧
      (List.replicate 20 0#8).length ≤ (inMode m).cfg.txMaxLen ∧
      (inMode m).cfg.txMaxLen < (List.replicate 21 0#8).length) ∧
    Transient (inMode .initializing) ∧ (inMode .ready).mode = .ready ∧
    (inMode .repeatedStartSent).mode = .repeatedStartSent := by
  refine ⟨Nat.le_of_eq List.length_replicate, fun m => ?_, ?_⟩
  · cases m <;> decide
  · decide

/-- The four clauses, at 0, 20 and 21 bytes to read. -/
theorem witness_ReadEffect :
    (∀ m, Memory.wf (inMode m).txbuf ∧ 1 ≤ (inMode m).cfg.txMaxLen ∧ (0#8).toNat ≤ (inMode m).cfg.rxMaxLen ∧
      (20#8).toNat ≤ (inMode m).cfg.rxMaxLen ∧ (inMode m).cfg.rxMaxLen < (21#8).toNat) ∧
    Transient (inMode .masterTransmitter) ∧ (inMode .ready).mode = .ready ∧
    (inMode .repeatedStartSent).mode = .repeatedStartSent := by
  refine ⟨fun m => ?_, ?_⟩
  · cases m <;> decide
  · decide

/-- The three clauses of TXSTEP's row, at the last byte of a full buffer and one past it. -/
theorem witness_TransmitEventEffects :
    (∃ s : State, s.txidx.toNat < s.txlen.toNat ∧ s.txlen.toNat ≤ s.cfg.txMaxLen) ∧
    (∃ s : State, s.txlen.toNat ≤ s.txidx.toNat ∧ s.rs = true) ∧
    (∃ s : State, s.txlen.toNat ≤ s.txidx.toNat ∧ s.rs = false) :=
  ⟨⟨{ State.reset with txlen := 20#8, txidx := 19#8 }, by decide⟩,
    ⟨{ State.reset with txlen := 20#8, txidx := 20#8, rs := true }, by decide⟩,
    { State.reset with txlen := 20#8, txidx := 20#8 }, by decide⟩

/-- Both answers, at `RXLEN` = 2 and 1, and at the `RXLEN` = 0 where an 8-bit subtraction would go wrong. -/
theorem witness_SlarAckEffect :
    (∃ s : State, (s.rxidx.toNat : Int) < (s.rxlen.toNat : Int) - 1) ∧
    (∃ s : State, s.rxlen = 1#8 ∧ (s.rxlen.toNat : Int) - 1 ≤ (s.rxidx.toNat : Int)) ∧
    (∃ s : State, s.rxlen = 0#8 ∧ (s.rxlen.toNat : Int) - 1 ≤ (s.rxidx.toNat : Int)) :=
  ⟨⟨{ State.reset with rxlen := 2#8 }, by decide⟩, ⟨{ State.reset with rxlen := 1#8 }, by decide⟩,
    State.reset, by decide⟩

/-- Both answers, and the last cell. -/
theorem witness_RxdAckEffect :
    (∃ s : State, Memory.wf s.rxbuf ∧ s.cfg.rxMaxLen ≤ 255 ∧ s.rxidx.toNat < s.cfg.rxMaxLen ∧
      (s.rxidx.toNat : Int) + 1 < (s.rxlen.toNat : Int) - 1) ∧
    (∃ s : State, Memory.wf s.rxbuf ∧ s.cfg.rxMaxLen ≤ 255 ∧ s.rxidx.toNat < s.cfg.rxMaxLen ∧
      (s.rxlen.toNat : Int) - 1 ≤ (s.rxidx.toNat : Int) + 1) ∧
    (∃ s : State, Memory.wf s.rxbuf ∧ s.cfg.rxMaxLen ≤ 255 ∧ s.rxidx.toNat < s.cfg.rxMaxLen ∧
      s.rxidx.toNat + 1 = s.cfg.rxMaxLen ∧ (s.rxlen.toNat : Int) - 1 ≤ (s.rxidx.toNat : Int) + 1) :=
  ⟨⟨{ State.reset with rxidx := 17#8, rxlen := 20#8 }, by decide⟩,
    ⟨{ State.reset with rxidx := 18#8, rxlen := 20#8 }, by decide⟩,
    { State.reset with rxidx := 19#8, rxlen := 20#8 }, by decide⟩

theorem witness_RxdNackEffect :
    Memory.wf State.reset.rxbuf ∧ (0#8).toNat < State.reset.cfg.rxMaxLen ∧ (19#8).toNat < State.reset.cfg.rxMaxLen ∧
    ({ State.reset with rs := true } : State).rs = true ∧ State.reset.rs = false := by decide

theorem witness_FailureEventEffects :
    ({ State.reset with rs := true } : State).rs = true ∧ State.reset.rs = false := by decide

theorem witness_StepKeepsTheInvariant :
    (given [0x00#8]).Inv ∧ ∃ t, step (given [0x00#8]) = .next t := ⟨by decide, _, rfl⟩

theorem witness_InvariantHoldsAtReset : Config.default.Wf := by decide

/-- A full receive buffer and one more byte, acknowledged or not. -/
theorem witness_OnlyReceiveStoresFault :
    ({ sized 4 4 with rxidx := 4#8, inputs := [.evt 0x50#8 1#8] } : State).Inv ∧ (sized 4 4).context = none ∧
    decode (sized 4 4).cfg (.evt 0x50#8 1#8) = .instr (.evtRxdAck 0x50#8 1#8) ∧
    decode (sized 4 4).cfg (.evt 0x58#8 1#8) = .instr (.evtRxdNack 0x58#8 1#8) ∧ (sized 4 4).cfg.rxMaxLen ≤ (4#8).toNat := by
  decide

/-- From an `ERR` of each kind. -/
theorem witness_ErrHoldsOnlyItsDomain :
    (given [0x04#8]).ErrLegal ∧ ({ given [0x04#8] with err := 0x38#8 } : State).ErrLegal ∧
    ∃ t, step (given [0x04#8]) = .next t := ⟨by decide, by decide, _, rfl⟩

theorem witness_CompleteListOfErrWrites : ∃ t, exec (.evtTxdNack 0x30#8) State.reset = .next t := ⟨_, rfl⟩

theorem witness_NextModeOfEveryEvent :
    (IsEvent (.evtTxdAck 0x28#8) ∧ ∃ t, exec (.evtTxdAck 0x28#8) State.reset = .next t) ∧
    IsEvent (.evtRxdAck 0x50#8 1#8) ∧ IsEvent (.evtRxdNack 0x58#8 1#8) ∧ (sized 4 4).cfg.rxMaxLen ≤ (4#8).toNat :=
  ⟨⟨trivial, _, rfl⟩, trivial, trivial, by decide⟩

/-- A change to each of the five modes. -/
theorem witness_OnlyWritersOfEachMode :
    (∃ t, exec (.transmit false []) (inMode .ready) = .next t ∧ t.mode ≠ .ready ∧ t.mode = .initializing) ∧
    (∃ t, exec (.evtSlawAck 0x18#8) { inMode .initializing with txlen := 1#8 } = .next t ∧ t.mode ≠ .initializing ∧
      t.mode = .masterTransmitter) ∧
    (∃ t, exec (.evtSlarAck 0x40#8) (inMode .initializing) = .next t ∧ t.mode ≠ .initializing ∧
      t.mode = .masterReceiver) ∧
    (∃ t, exec (.evtRstart 0x10#8) (inMode .masterReceiver) = .next t ∧ t.mode ≠ .masterReceiver ∧
      t.mode = .repeatedStartSent) ∧
    (∃ t, exec (.evtBuserr 0x00#8) (inMode .masterReceiver) = .next t ∧ t.mode ≠ .masterReceiver ∧ t.mode = .ready) :=
  ⟨⟨_, rfl, by decide⟩, ⟨_, rfl, by decide⟩, ⟨_, rfl, by decide⟩, ⟨_, rfl, by decide⟩, ⟨_, rfl, by decide⟩⟩

theorem witness_CompleteListOfRsWrites :
    1 ≤ State.reset.cfg.txMaxLen ∧ ∃ t, exec (.transmit true []) State.reset = .next t := ⟨by decide, _, rfl⟩

/-- TRANSMIT keeps the receive buffer, a receive event keeps the transmit buffer, and ISREADY keeps both. -/
theorem witness_OnlyWritersOfTheBuffers :
    (∃ t, exec (.transmit true [0xA0#8]) State.reset = .next t) ∧
    (∃ t, exec (.evtRxdAck 0x50#8 1#8) State.reset = .next t) ∧ ∃ t, exec .isready State.reset = .next t :=
  ⟨⟨_, rfl⟩, ⟨_, rfl⟩, _, rfl⟩

theorem witness_CompleteListOfPeripheralWrites :
    ((inMode .repeatedStartSent).Inv ∧ ∃ t, exec (.transmit true [0xA0#8]) (inMode .repeatedStartSent) = .next t) ∧
    ((inMode .ready).Inv ∧ (∀ w ∈ issued (inMode .ready) .init, isPrimitive w = false) ∧ ¬ IsEvent .init ∧
      ∃ t, exec .init (inMode .ready) = .next t) ∧
    ((inMode .ready).Inv ∧ (∀ w ∈ issued (inMode .ready) (.evtRstart 0x10#8), isPrimitive w = false) ∧
      IsEvent (.evtRstart 0x10#8) ∧ ∃ t, exec (.evtRstart 0x10#8) (inMode .ready) = .next t) ∧
    (sized 4 4).cfg.rxMaxLen ≤ (4#8).toNat :=
  ⟨⟨by decide, _, rfl⟩, ⟨by decide, by decide, (fun h => h), _, rfl⟩, ⟨by decide, by decide, trivial, _, rfl⟩, by decide⟩

theorem witness_EventFlagAfterEvents :
    (∃ t, exec (.evtRstart 0x10#8) State.reset = .next t ∧ t.evf = true) ∧
    (∃ t, exec (.evtStart 0x08#8) State.reset = .next t ∧ t.evf = false) := ⟨⟨_, rfl, rfl⟩, _, rfl, rfl⟩

theorem witness_InterruptStaysEnabled :
    ({ given [0x01#8] with cr := cwEnable } : State).enabled = true ∧
    (given [0x01#8]).inputs.head? ≠ some .reset ∧ ∃ t, step { given [0x01#8] with cr := cwEnable } = .next t :=
  ⟨by decide, by decide, _, rfl⟩

theorem witness_TransientModeOnlyLeftByEvents :
    Transient (inMode .masterReceiver) ∧
    (∃ t, step ((inMode .masterReceiver).present (.evt 0x00#8 0#8)) = .next t ∧ t.mode ≠ .masterReceiver) ∧
    ∃ t, exec .init (inMode .masterReceiver) = .next t ∧ t.mode ≠ .masterReceiver :=
  ⟨by decide, ⟨_, rfl, by decide⟩, _, rfl, by decide⟩

theorem witness_TraceHoldsOnlyTheSixControlWords :
    TraceLegal (given [0x00#8]) ∧ (given [0x00#8]).cr ∈ cwOff :: legalControlWords ∧
    ∃ t, step (given [0x00#8]) = .next t := ⟨nofun, by decide, _, rfl⟩

theorem witness_ParametersInputsAndResults : ∃ t, exec .init State.reset = .next t := ⟨_, rfl⟩

theorem witness_BlockIgnoresThePeripheralsState : ∃ t, exec (.evtStart 0x08#8) State.reset = .next t := ⟨_, rfl⟩

theorem witness_ModeIsNoGuardOfEvents :
    IsEvent (.evtStart 0x08#8) ∧ ∃ t, exec (.evtStart 0x08#8) (inMode .masterReceiver) = .next t := ⟨trivial, _, rfl⟩

/-- In the middle of sending, with `RS = 1`, `RXBUF` full and a next byte whose bit 0 is 1. -/
def resuming (rxidx : Byte) : State :=
  { sized 4 4 with
    mode := .masterTransmitter, rs := true, txbuf := [(0, 0xA0#8), (1, 0x11#8)], txlen := 2#8, txidx := 1#8,
    rxlen := 4#8, rxidx := rxidx, cr := cwXmit,
    inputs := [.evt 0x38#8 0#8, .evt 0x08#8 0#8, .evt 0x40#8 0#8, .evt 0x58#8 0x99#8] }

/-- The address byte is on the bus. -/
abbrev sending : Bus := ⟨true, true, .byte 0xA0#8, none⟩

/-- A read of 20 after `k` bytes, one more event to come. -/
def reading (k : Byte) (e : Packet) : State :=
  { inMode .masterReceiver with
    txbuf := [(0, 0xA1#8)], txlen := 1#8, txidx := 1#8, rxlen := 20#8, rxidx := k, cr := cwAck, inputs := [e] }

/-- The slave's bytes are coming, to be answered with ACK or NACK. -/
abbrev receiving (ack : Bool) : Bus := ⟨true, false, .receive ack, none⟩

/-- The last acknowledged byte of a read of 20, and the last byte. -/
theorem witness_NoOverrunUnderTheContract :
    (RxSafe (receiving true) (reading 18#8 (.evt 0x50#8 1#8)) ∧
      decode Config.default (.evt 0x50#8 1#8) = .instr (.evtRxdAck 0x50#8 1#8) ∧
      contractKept (receiving true) (reading 18#8 (.evt 0x50#8 1#8)) (.evtRxdAck 0x50#8 1#8) = true) ∧
    (RxSafe (receiving false) (reading 19#8 (.evt 0x58#8 1#8)) ∧
      decode Config.default (.evt 0x58#8 1#8) = .instr (.evtRxdNack 0x58#8 1#8) ∧
      contractKept (receiving false) (reading 19#8 (.evt 0x58#8 1#8)) (.evtRxdNack 0x58#8 1#8) = true) :=
  ⟨⟨⟨⟨by decide, by decide, by decide, by decide⟩, by decide⟩, by decide, by decide⟩,
    ⟨⟨by decide, by decide, by decide, by decide⟩, by decide⟩, by decide, by decide⟩

/-- The premise on reads at S_START after a lost arbitration: a resumed byte with bit 0 = 1 breaks it, one with bit 0 = 0
keeps it, and so does READ's own frame (spec/43_peripheral_contract.md R129, R123). -/
theorem test_readsOnlyWithRead :
    readsOnlyWithRead (resuming 3#8) (.evtStart 0x08#8) = false ∧
    readsOnlyWithRead { resuming 3#8 with txbuf := [(0, 0xA0#8), (1, 0x10#8)] } (.evtStart 0x08#8) = true ∧
    readsOnlyWithRead { resuming 3#8 with txbuf := [(0, 0xA1#8)], txlen := 1#8, txidx := 0#8 } (.evtStart 0x08#8) = true := by
  decide

/-- Arbitration lost before a read address, with `RXBUF` full (R168's run) and with one byte of room. -/
theorem witness_OnlyTheResumedReadLosesRoom :
    (RxRoom sending (resuming 4#8) ∧ frameContractKept sending (resuming 4#8) (.evtArbLost 0x38#8) = true ∧
      (∃ t, step (resuming 4#8) = .next t) ∧ ResumesAsReadWhenFull (resuming 4#8) (.evtArbLost 0x38#8)) ∧
    (RxRoom sending (resuming 3#8) ∧ frameContractKept sending (resuming 3#8) (.evtArbLost 0x38#8) = true ∧
      (∃ t, step (resuming 3#8) = .next t) ∧ ¬ ResumesAsReadWhenFull (resuming 3#8) (.evtArbLost 0x38#8)) :=
  ⟨⟨⟨by decide, by decide, by decide, by decide⟩, by decide, ⟨_, rfl⟩, ⟨_, rfl⟩, by decide⟩,
    ⟨by decide, by decide, by decide, by decide⟩, by decide, ⟨_, rfl⟩, fun h => absurd h.2.2.2.2 (by decide)⟩

theorem witness_ContractHoldsAtReset : Config.default.Wf := by decide

/-- One byte, and the whole buffer with a repeated start. -/
theorem witness_AcknowledgedWriteSendsEveryByte :
    (∃ s : State, s.Inv ∧ s.context = none ∧ s.initialised = true ∧ s.mode = .ready ∧
      [0xA0#8].length ≤ s.cfg.txMaxLen ∧
      s.inputs = encode s.cfg (.transmit false [0xA0#8]) :: eventOf s.cfg .start 0#8 :: eventOf s.cfg .slawAck 0#8 ::
        (List.replicate 0 (eventOf s.cfg .txdAck 0#8) ++ if false then [eventOf s.cfg .rstart 0#8] else [])) ∧
    (∃ s : State, s.Inv ∧ s.context = none ∧ s.initialised = true ∧ s.mode = .ready ∧
      [0xA0#8, 1#8, 2#8, 3#8].length ≤ s.cfg.txMaxLen ∧
      s.inputs = encode s.cfg (.transmit true [0xA0#8, 1#8, 2#8, 3#8]) :: eventOf s.cfg .start 0#8 ::
        eventOf s.cfg .slawAck 0#8 ::
        (List.replicate 3 (eventOf s.cfg .txdAck 0#8) ++ if true then [eventOf s.cfg .rstart 0#8] else [])) :=
  ⟨⟨{ State.reset with
      initialised := true
      inputs := [.cmd [0x02#8, 0x00#8, 0x01#8, 0xA0#8], .evt 0x08#8 0#8, .evt 0x18#8 0#8] },
      by decide, rfl, rfl, by decide, by decide, by decide⟩,
    { sized 4 4 with
      initialised := true
      inputs := [.cmd [0x02#8, 0x01#8, 0x04#8, 0xA0#8, 0x01#8, 0x02#8, 0x03#8], .evt 0x08#8 0#8, .evt 0x18#8 0#8,
        .evt 0x28#8 0#8, .evt 0x28#8 0#8, .evt 0x28#8 0#8, .evt 0x10#8 0#8] },
    by decide, rfl, rfl, by decide, by decide, by decide⟩

/-- One byte, and the whole buffer with a repeated start. -/
theorem witness_CompletedReadStoresEveryByte :
    (∃ s : State, s.Inv ∧ s.context = none ∧ s.initialised = true ∧ s.mode = .ready ∧
      ([] : List Byte).length + 1 ≤ s.cfg.rxMaxLen ∧
      s.inputs = encode s.cfg (.read false 0x50#7 1#8) :: eventOf s.cfg .start 0#8 :: eventOf s.cfg .slarAck 0#8 ::
        (([] : List Byte).map (eventOf s.cfg .rxdAck) ++ eventOf s.cfg .rxdNack 0xAA#8 ::
          if false then [eventOf s.cfg .rstart 0#8] else [])) ∧
    (∃ s : State, s.Inv ∧ s.context = none ∧ s.initialised = true ∧ s.mode = .ready ∧
      [0x11#8, 0x22#8].length + 1 ≤ s.cfg.rxMaxLen ∧
      s.inputs = encode s.cfg (.read true 0x50#7 3#8) :: eventOf s.cfg .start 0#8 :: eventOf s.cfg .slarAck 0#8 ::
        ([0x11#8, 0x22#8].map (eventOf s.cfg .rxdAck) ++ eventOf s.cfg .rxdNack 0x33#8 ::
          if true then [eventOf s.cfg .rstart 0#8] else [])) :=
  ⟨⟨{ State.reset with
      initialised := true
      inputs := [.cmd [0x03#8, 0x00#8, 0x50#8, 0x01#8], .evt 0x08#8 0#8, .evt 0x40#8 0#8, .evt 0x58#8 0xAA#8] },
      by decide, rfl, rfl, by decide, by decide, by decide⟩,
    { sized 4 3 with
      initialised := true
      inputs := [.cmd [0x03#8, 0x01#8, 0x50#8, 0x03#8], .evt 0x08#8 0#8, .evt 0x40#8 0#8, .evt 0x50#8 0x11#8,
        .evt 0x50#8 0x22#8, .evt 0x58#8 0x33#8, .evt 0x10#8 0#8] },
    by decide, rfl, rfl, by decide, by decide, by decide⟩

theorem witness_PrimitivesNeverRunAlone :
    ((State.reset.present (.prim none 0xA5#8)).context = none ∧
      (State.reset.present (.prim none 0xA5#8)).inputs = .prim none 0xA5#8 :: []) ∧
    ((given [0x01#8]).inputs ≠ [] ∧ ∃ t, step (given [0x01#8]) = .next t) ∧
    ((given [0x01#8]).context = none ∧ ∃ t, Host.Core.run core 1 (given [0x01#8]) = .next t) :=
  ⟨by decide, ⟨by decide, _, rfl⟩, rfl, _, rfl⟩

/-- A step of such a run: the last byte of a read of 20. -/
theorem witness_NoRunUnderTheContractFaults :
    RxSafe (receiving false) (reading 19#8 (.evt 0x58#8 1#8)) ∧
    RunKeeps (fun b s i => contractKept b s i = true) 1 (receiving false) (reading 19#8 (.evt 0x58#8 1#8)) :=
  ⟨⟨⟨by decide, by decide, by decide, by decide⟩, by decide⟩, by decide, fun _ _ => trivial⟩

/-- A step of such a run: arbitration lost with one byte of room. -/
theorem witness_NoRunWithoutTheResumedReadFaults :
    RxRoom sending (resuming 3#8) ∧
    RunKeeps (fun b s i => frameContractKept b s i = true ∧ ¬ ResumesAsReadWhenFull s i) 1 sending (resuming 3#8) :=
  ⟨⟨by decide, by decide, by decide, by decide⟩, ⟨by decide, fun h => absurd h.2.2.2.2 (by decide)⟩, fun _ _ => trivial⟩

theorem witness_ResumedReadOverrunsAFullBuffer :
    RxRoom sending (resuming 4#8) ∧ (resuming 4#8).context = none ∧ (resuming 4#8).enabled = true ∧
    sending.busy = .byte 0xA0#8 ∧ (resuming 4#8).rs = true ∧ (resuming 4#8).txidx.toNat < (resuming 4#8).txlen.toNat ∧
    ((resuming 4#8).txbuf.read (resuming 4#8).txidx.toNat).getLsbD 0 = true ∧
    (resuming 4#8).rxidx.toNat = (resuming 4#8).cfg.rxMaxLen ∧ 0 < (resuming 4#8).txidx.toNat ∧
    (resuming 4#8).inputs = [eventOf (resuming 4#8).cfg .arbLost 0#8, eventOf (resuming 4#8).cfg .start 0#8,
      eventOf (resuming 4#8).cfg .slarAck 0#8, eventOf (resuming 4#8).cfg .rxdNack 0x99#8] :=
  ⟨⟨by decide, by decide, by decide, by decide⟩, by decide⟩

theorem witness_ResetOnlyStartsARun :
    ((State.reset.present .reset).context = none ∧ (State.reset.present .reset).inputs = .reset :: [] ∧
      (State.reset.present .reset).started = false) ∧
    ({ State.reset.present .reset with started := true } : State).started = true ∧
    ((given [0x01#8]).inputs ≠ [] ∧ ∃ t, step (given [0x01#8]) = .next t) ∧
    ∃ t, Host.Core.run core 1 (given [0x01#8]) = .next t := ⟨by decide, rfl, ⟨by decide, _, rfl⟩, _, rfl⟩

/-- INIT in `Ready` and in `RepeatedStartSent`, a frame that breaks the premise and one that does not, a started run after
INIT, and a run with INIT first. -/
theorem witness_InitFirstAndOnlyWhenIdle :
    ((State.reset.present (.cmd [0x00#8])).context = none ∧
      (State.reset.present (.cmd [0x00#8])).inputs = .cmd [0x00#8] :: [] ∧
      (State.reset.present (.cmd [0x00#8])).mode = .ready) ∧
    (((inMode .repeatedStartSent).present (.cmd [0x00#8])).context = none ∧
      ((inMode .repeatedStartSent).present (.cmd [0x00#8])).mode ≠ .ready) ∧
    (BreaksLaunchPremise (State.reset.present (.cmd [0x01#8])) [0x01#8] ∧
      step (State.reset.present (.cmd [0x01#8])) = .refused .beforeInit ∧
      ¬ BreaksLaunchPremise (given [0x01#8]) [0x01#8]) ∧
    (({ given [0x01#8] with started := true } : State).started = true ∧ (given [0x01#8]).initialised = true ∧
      ∃ t, step { given [0x01#8] with started := true } = .next t) ∧
    (State.reset.initialised = false ∧
      ∃ t, Host.Core.run core 2 { State.reset with inputs := [.cmd [0x00#8], .cmd [0x01#8]] } = .next t) :=
  ⟨by decide, by decide, ⟨by decide, rfl, by decide⟩, ⟨rfl, rfl, _, rfl⟩, rfl, _, rfl⟩

end Sys2Proof.Tests
end

section
/-! PROOFS of the statements about the state (spec/10_state.md): the invariant, what `ERR` and `RS` can become, and what
every instruction leaves unchanged. Each is a case split over `ExecNext`, the inversion of `exec`. -/

namespace Sys2Proof.Machine

open Sys2Proof.Certificates

/-! ### What every instruction leaves unchanged, and how many results it gives -/

theorem ExecNext.cfg_eq {i : Instr} {s t : State} (h : ExecNext i s t) : t.cfg = s.cfg := by
  cases h <;> rfl

theorem ExecNext.inputs_eq {i : Instr} {s t : State} (h : ExecNext i s t) : t.inputs = s.inputs := by
  cases h <;> rfl

theorem ExecNext.started_eq {i : Instr} {s t : State} (h : ExecNext i s t) : t.started = s.started := by
  cases h <;> rfl

theorem ExecNext.context_eq {i : Instr} {s t : State} (h : ExecNext i s t) (hr : i ≠ .reset) :
    t.context = s.context := by
  cases h
  case reset => exact absurd rfl hr
  all_goals rfl

theorem ExecNext.initialised_eq {i : Instr} {s t : State} (h : ExecNext i s t) (hi : i ≠ .init) (hr : i ≠ .reset) :
    t.initialised = s.initialised := by
  cases h
  case init => exact absurd rfl hi
  case reset => exact absurd rfl hr
  all_goals rfl

/-- Every command gives one result byte, anything else none (spec/30_encoding.md R60). -/
theorem ExecNext.results_eq {i : Instr} {s t : State} (h : ExecNext i s t) :
    ∃ r, t.results = s.results ++ r ∧ r.length = resultCount i := by
  cases h
  case init | txLong | txBusy | txReady | txHeld | rxLong | rxBusy | rxNoTx | rxReady | rxHeld => exact ⟨[_], rfl, rfl⟩
  case answer c hi => rcases hi with ⟨rfl, -⟩ | ⟨rfl, -⟩ | ⟨rfl, -⟩ | ⟨k, rfl, -⟩ <;> exact ⟨[c], rfl, rfl⟩
  case txStep _ _ hi => rcases hi with ⟨rfl, -⟩ | ⟨rfl, -⟩ | ⟨rfl, -⟩ <;> exact ⟨[], by simp, rfl⟩
  case txStart _ _ hi => rcases hi with ⟨rfl, -⟩ | ⟨rfl, -⟩ | ⟨rfl, -⟩ <;> exact ⟨[], by simp, rfl⟩
  case txStop hi _ _ => rcases hi with rfl | rfl | rfl <;> exact ⟨[], by simp, rfl⟩
  case failStart hi _ | failStop hi _ => rcases hi with rfl | rfl | rfl | rfl <;> exact ⟨[], by simp, rfl⟩
  all_goals exact ⟨[], by simp, rfl⟩

/-- Settles O40, field by field. -/
theorem parametersInputsAndResults : Obligations.ParametersInputsAndResults := by
  intro i s t hx
  have h := exec_next i s t hx
  exact ⟨h.cfg_eq, h.inputs_eq, h.started_eq, h.context_eq, h.initialised_eq, h.results_eq⟩

/-! ### The invariant: one rule per operation that writes a buffer or a counter

The invariant speaks of no other field, so every other update keeps it by computation. -/

/-- The counters are in range and the buffers canonical after reset (spec/10_state.md R36). -/
theorem State.resetWith_inv (c : Config) (hc : c.Wf) : (State.resetWith c).Inv := by
  simpa [State.Inv, State.resetWith, Memory.wf] using hc

/-- An accepted TRANSMIT copies no more bytes than fit, and its length fits in the byte `TXLEN`. -/
theorem State.loadTx_inv (s : State) (rs : Bool) (data : List Byte) (hs : s.Inv)
    (hlen : data.length ≤ s.cfg.txMaxLen) : (s.loadTx rs data).Inv := by
  obtain ⟨hc, htx, hrx, htxIn, hrxIn, -, -, hrxlen, hrxidx⟩ := hs
  have hmax : s.cfg.txMaxLen ≤ 255 := hc.1.2
  refine ⟨hc, Memory.wf_copyIn data _ 0 htx, hrx, fun x hx => ?_, hrxIn, ?_, ?_, hrxlen, hrxidx⟩
  · rcases Memory.mem_copyIn data _ 0 x hx with ⟨-, hlt⟩ | hold
    · change x.1 < s.cfg.txMaxLen
      omega
    · exact htxIn x hold
  · simp only [State.loadTx_txlen, State.loadTx_cfg, BitVec.toNat_ofNat]
    omega
  · simp

/-- READ's two counter writes, for a length that fits. -/
theorem State.setRx_inv (s : State) (n : Byte) (hs : s.Inv) (hn : n.toNat ≤ s.cfg.rxMaxLen) : (s.setRx 0#8 n).Inv := by
  obtain ⟨hc, htx, hrx, htxIn, hrxIn, htxlen, htxidx, -, -⟩ := hs
  exact ⟨hc, htx, hrx, htxIn, hrxIn, htxlen, htxidx, hn, by simp⟩

/-- A receive store in range: `RXIDX` goes up by one, and does not wrap. -/
theorem State.putRx_inv (s : State) (hs : s.Inv) (hlt : s.rxidx.toNat < s.cfg.rxMaxLen) : s.putRx.Inv := by
  obtain ⟨hc, htx, hrx, htxIn, hrxIn, htxlen, htxidx, hrxlen, -⟩ := hs
  have hmax : s.cfg.rxMaxLen ≤ 255 := hc.2.1.2
  refine ⟨hc, htx, Memory.wf_write _ _ _ hrx, htxIn, fun x hx => ?_, htxlen, htxidx, hrxlen, ?_⟩
  · rcases Memory.mem_write _ _ _ x hx with ⟨rfl, -⟩ | hold
    · exact hlt
    · exact hrxIn x hold
  · simp only [State.putRx_rxidx, State.putRx_cfg, BitVec.toNat_add, BitVec.toNat_ofNat]
    omega

/-- `TXIDX` may be any value up to `max(TXLEN, 1)` (spec/10_state.md R23). -/
theorem State.setTxIdx_inv (s : State) (v : Byte) (hs : s.Inv) (hv : v.toNat ≤ max s.txlen.toNat 1) :
    (s.setTxIdx v).Inv := by
  obtain ⟨hc, htx, hrx, htxIn, hrxIn, htxlen, -, hrxlen, hrxidx⟩ := hs
  exact ⟨hc, htx, hrx, htxIn, hrxIn, htxlen, hv, hrxlen, hrxidx⟩

/-- Staging a pending byte leaves `TXIDX` at most `TXLEN`. -/
theorem State.succ_txidx_le (s : State) (h : s.txidx.toNat < s.txlen.toNat) :
    (s.txidx + 1#8).toNat ≤ max s.txlen.toNat 1 := by
  have := s.txlen.isLt
  simp only [BitVec.toNat_add, BitVec.toNat_ofNat]
  omega

/-- Every instruction keeps the invariant. -/
theorem ExecNext.keeps_inv {i : Instr} {s t : State} (h : ExecNext i s t) (hs : s.Inv) : t.Inv := by
  cases h
  case txReady rs d hlen _ => exact s.loadTx_inv rs d hs hlen
  case txHeld rs d hlen _ _ => exact (s.loadTx rs d).setTxIdx_inv 1#8 (s.loadTx_inv rs d hs hlen) (le_max_right ..)
  case rxNoTx n hn _ _ => exact s.setRx_inv n hs hn
  case rxReady rs a n hn _ h0 => exact (s.setRx 0#8 n).loadTx_inv rs [addressFrame a] (s.setRx_inv n hs hn) h0
  case rxHeld rs a n hn _ h0 =>
    exact ((s.setRx 0#8 n).loadTx rs [addressFrame a]).setTxIdx_inv 1#8
      ((s.setRx 0#8 n).loadTx_inv rs [addressFrame a] (s.setRx_inv n hs hn) h0) (le_max_right ..)
  case txStep hpend _ _ => exact s.setTxIdx_inv _ hs (s.succ_txidx_le hpend)
  case rxAck sr dr hlt _ | rxNack sr dr hlt _ | rxStart sr dr hlt _ | rxStop sr dr hlt _ =>
    exact (s.enterHandlerRx sr dr).putRx_inv hs hlt
  case reset => exact State.resetWith_inv s.cfg hs.1
  all_goals exact hs

/-- Settles O26: every decoded instruction keeps the invariant, which does not look at the rest of the step. -/
theorem stepKeepsTheInvariant : Obligations.StepKeepsTheInvariant :=
  step_keeps State.Inv (fun _ _ _ _ hs => hs) fun _ i s t _ hs hx => (exec_next i s t hx).keeps_inv hs

/-- Settles O27, `State.reset` being the state after reset under the default parameters. -/
theorem invariantHoldsAtReset : Obligations.InvariantHoldsAtReset :=
  ⟨State.resetWith_inv, State.resetWith_inv Config.default Config.default_wf⟩

/-! ### `ERR` -/

/-- The instructions that record a status in `ERR` (spec/42_event_fsm.md R107 to R110, R112), with the value of SR they
were delivered with. -/
def RecordsStatus (i : Instr) (sr : Byte) : Prop :=
  (i = .evtSlarNack sr ∨ i = .evtSlawNack sr ∨ i = .evtTxdNack sr ∨ i = .evtArbLost sr) ∨ i = .evtBuserr sr

/-- An event rule that records a status is selected by one of the five error statuses only (spec/42_event_fsm.md R95). -/
theorem eventInstr_recordsStatus (o : Option Status) (x dr sr : Byte) (h : RecordsStatus (eventInstr o x dr) sr) :
    x = sr ∧ ∃ st ∈ errorStatuses, o = some st := by
  rcases o with _ | st
  · simp [RecordsStatus, eventInstr] at h
  · cases st <;> simp_all [RecordsStatus, eventInstr, errorStatuses]

/-- Decoding gives an instruction that records a status only where the masked value of SR is an error status' code. -/
theorem statusMask_of_recordsStatus (c : Config) (p : Packet) (i : Instr) (sr : Byte) (hd : decode c p = .instr i)
    (hi : RecordsStatus i sr) : ∃ st ∈ errorStatuses, sr &&& c.statusMask = c.statusEnc.code st := by
  have hs := decode_source c p i hd
  cases p with
  | evt x dr =>
    cases hd
    obtain ⟨rfl, st, hst, hcl⟩ := eventInstr_recordsStatus _ x dr sr hi
    exact ⟨st, hst, classify_some c _ st hcl⟩
  | cmd f => rcases hi with (rfl | rfl | rfl | rfl) | rfl <;> exact hs.elim
  | prim b w => rcases hi with (rfl | rfl | rfl | rfl) | rfl <;> exact hs.elim
  | reset => rcases hi with (rfl | rfl | rfl | rfl) | rfl <;> cases hs

/-- `ERR` stays, is cleared to 0xFF, or is the masked status of an event that records it. -/
theorem ExecNext.err_cases {i : Instr} {s t : State} (h : ExecNext i s t) :
    t.err = s.err ∨ t.err = 0xFF#8 ∨ ∃ sr, RecordsStatus i sr ∧ t.err = sr &&& s.cfg.statusMask := by
  cases h
  case init | txStart | txStop | rxStart | rxStop | reset => exact .inr (.inl rfl)
  case failStart sr hi _ | failStop sr hi _ => exact .inr (.inr ⟨sr, .inl hi, rfl⟩)
  case buserr sr => exact .inr (.inr ⟨sr, .inr rfl, rfl⟩)
  all_goals exact .inl rfl

/-- A masked status is recorded by a decoded event only, whose code it then is; everything else keeps `ERR`'s domain
(spec/10_state.md R17). -/
theorem ExecNext.keeps_errLegal {p : Packet} {i : Instr} {s t : State} (h : ExecNext i s t)
    (hd : decode s.cfg p = .instr i) (hs : s.ErrLegal) : t.ErrLegal := by
  unfold State.ErrLegal
  rw [h.cfg_eq]
  rcases h.err_cases with he | he | ⟨sr, hi, he⟩
  · rw [he]; exact hs
  · exact .inl he
  · rw [he]; exact .inr (statusMask_of_recordsStatus s.cfg p i sr hd hi)

/-- Settles O29: a step runs decoded instructions only, and those keep `ERR`'s domain; reset holds 0xFF. -/
theorem errHoldsOnlyItsDomain : Obligations.ErrHoldsOnlyItsDomain :=
  ⟨step_keeps State.ErrLegal (fun _ _ _ _ hs => hs) fun _ i s t hd hs hx => (exec_next i s t hx).keeps_errLegal hd hs,
    fun _ => .inl rfl⟩

/-! ### `RS` -/

/-- `RS` is written by an accepted TRANSMIT or READ, by INIT and by RESET (spec/10_state.md R18). `TXMAXLEN >= 1`
leaves room for READ's address frame, so a READ that passes its own tests is accepted. -/
theorem ExecNext.rs_eq {i : Instr} {s t : State} (h : ExecNext i s t) (h0 : 1 ≤ s.cfg.txMaxLen) :
    t.rs = rsAfter s i := by
  cases h
  case txLong hlen => simp [rsAfter, Nat.not_le_of_lt hlen]
  case rxLong hlen => simp [rsAfter, Nat.not_le_of_lt hlen]
  case txBusy _ hr | rxBusy _ hr => simp [rsAfter, hr]
  case txReady hlen hm | rxReady hlen hm _ => simp [rsAfter, hlen, State.ready, hm]
  case txHeld hlen hm _ | rxHeld hlen hm _ => simp [rsAfter, hlen, State.ready, hm]
  case rxNoTx hno => exact absurd h0 (Nat.not_le_of_lt hno)
  case answer hi => rcases hi with ⟨rfl, -⟩ | ⟨rfl, -⟩ | ⟨rfl, -⟩ | ⟨k, rfl, -⟩ <;> rfl
  case txStep _ _ hi => rcases hi with ⟨rfl, -⟩ | ⟨rfl, -⟩ | ⟨rfl, -⟩ <;> rfl
  case txStart _ _ hi => rcases hi with ⟨rfl, -⟩ | ⟨rfl, -⟩ | ⟨rfl, -⟩ <;> rfl
  case txStop hi _ _ => rcases hi with rfl | rfl | rfl <;> rfl
  case failStart hi _ | failStop hi _ => rcases hi with rfl | rfl | rfl | rfl <;> rfl
  all_goals rfl

/-- Settles O33, by the case split of `ExecNext.rs_eq`. -/
theorem completeListOfRsWrites : Obligations.CompleteListOfRsWrites :=
  fun i s t h0 hx => (exec_next i s t hx).rs_eq h0

/-! ### The peripheral's registers -/

/-- The state with other contents of the peripheral's registers and flag, and another trace. -/
@[simp] def State.withPeripheral (s : State) (cr : ControlWord) (dr sr : Byte) (br : Nat) (evf : Bool)
    (tr : List PeriphWrite) : State :=
  { s with cr := cr, dr := dr, sr := sr, br := br, evf := evf, trace := tr }

/-- The block has gone on alike from `s` to `t` and from `s'` to `u`: the same nine members, results and new writes. -/
@[simp] def GoesOnAlike (s t s' u : State) : Prop :=
  SameOwn t u ∧ u.results = t.results ∧ u.trace.drop s'.trace.length = t.trace.drop s.trace.length

/-- No clause of `ExecNext` has a condition on the peripheral's state, so the same clause gives the other next state; and
no value read from there goes into the nine members, the results or the writes it adds. -/
theorem ExecNext.ignores_peripheral {i : Instr} {s t : State} (h : ExecNext i s t) (cr : ControlWord) (dr sr : Byte)
    (br : Nat) (evf : Bool) (tr : List PeriphWrite) :
    ∃ u, ExecNext i (s.withPeripheral cr dr sr br evf tr) u ∧
      GoesOnAlike s t (s.withPeripheral cr dr sr br evf tr) u := by
  cases h
  case init => exact ⟨_, .init _, by simp [SameOwn]⟩
  case answer c hi => exact ⟨_, .answer i _ c hi, by simp [SameOwn]⟩
  case txLong hlen => exact ⟨_, .txLong _ _ _ hlen, by simp [SameOwn]⟩
  case txBusy hlen hr => exact ⟨_, .txBusy _ _ _ hlen hr, by simp [SameOwn]⟩
  case txReady hlen hm => exact ⟨_, .txReady _ _ _ hlen hm, by simp [SameOwn]⟩
  case txHeld hlen hm h0 => exact ⟨_, .txHeld _ _ _ hlen hm h0, by simp [SameOwn]⟩
  case rxLong hn => exact ⟨_, .rxLong _ _ _ _ hn, by simp [SameOwn]⟩
  case rxBusy hn hr => exact ⟨_, .rxBusy _ _ _ _ hn hr, by simp [SameOwn]⟩
  case rxNoTx hn hr h0 => exact ⟨_, .rxNoTx _ _ _ _ hn hr h0, by simp [SameOwn]⟩
  case rxReady hn hm h0 => exact ⟨_, .rxReady _ _ _ _ hn hm h0, by simp [SameOwn]⟩
  case rxHeld hn hm h0 => exact ⟨_, .rxHeld _ _ _ _ hn hm h0, by simp [SameOwn]⟩
  case txStep x m hp hc hi => exact ⟨_, .txStep i _ x m hi hp hc, by simp [SameOwn]⟩
  case txStart x m hp hr hi => exact ⟨_, .txStart i _ x m hi hp hr, by simp [SameOwn]⟩
  case txStop x hi hp hr => exact ⟨_, .txStop i _ x hi hp hr, by simp [SameOwn]⟩
  case slarAck hm => exact ⟨_, .slarAck _ _ hm, by simp [SameOwn]⟩
  case slarNack hm => exact ⟨_, .slarNack _ _ hm, by simp [SameOwn]⟩
  case rxAck hlt hm => exact ⟨_, .rxAck _ _ _ hlt hm, by simp [SameOwn]⟩
  case rxNack hlt hm => exact ⟨_, .rxNack _ _ _ hlt hm, by simp [SameOwn]⟩
  case rxStart hlt hr => exact ⟨_, .rxStart _ _ _ hlt hr, by simp [SameOwn]⟩
  case rxStop hlt hr => exact ⟨_, .rxStop _ _ _ hlt hr, by simp [SameOwn]⟩
  case failStart x hi hr => exact ⟨_, .failStart i _ x hi hr, by simp [SameOwn]⟩
  case failStop x hi hr => exact ⟨_, .failStop i _ x hi hr, by simp [SameOwn]⟩
  case rstart => exact ⟨_, .rstart _ _, by simp [SameOwn]⟩
  case buserr => exact ⟨_, .buserr _ _, by simp [SameOwn]⟩
  case noinfo => exact ⟨_, .noinfo _ _, by simp [SameOwn]⟩
  case unlisted => exact ⟨_, .unlisted _ _, by simp [SameOwn]⟩
  case sendStart => exact ⟨_, .sendStart _, by simp [SameOwn]⟩
  case sendStop => exact ⟨_, .sendStop _, by simp [SameOwn]⟩
  case sendTransmit => exact ⟨_, .sendTransmit _ _, by simp [SameOwn]⟩
  case sendAck => exact ⟨_, .sendAck _, by simp [SameOwn]⟩
  case sendNack => exact ⟨_, .sendNack _, by simp [SameOwn]⟩
  case initCw => exact ⟨_, .initCw _, by simp [SameOwn]⟩
  case reset => exact ⟨_, .reset _, by simp [SameOwn, State.resetWith]⟩

/-- Settles O41: the next state of the other state is the one the same clause of `ExecNext` gives. -/
theorem blockIgnoresThePeripheralsState : Obligations.BlockIgnoresThePeripheralsState := by
  intro i s t cr dr sr br evf tr hx
  obtain ⟨u, hu, halike⟩ := (exec_next i s t hx).ignores_peripheral cr dr sr br evf tr
  exact ⟨u, exec_of_execNext _ _ _ hu, halike⟩

/-! ### Reset -/

/-- Settles O7: R36's table by computation, and INIT writes nothing of the block's own that reset has not set. -/
theorem stateAfterReset : Obligations.StateAfterReset := by
  intro c
  refine ⟨rfl, rfl, rfl, rfl, rfl, rfl, rfl, fun _ => rfl, fun _ => rfl, rfl, rfl, rfl, rfl, _, rfl, ?_⟩
  exact ⟨rfl, rfl, rfl, rfl, rfl, rfl, rfl, rfl, rfl⟩

end Sys2Proof.Machine
end

section
/-! PROOFS of the statements about memory and its accesses (spec/20_memory.md): one rule per case of a step, from which
the step's whole case split is read off, and which instructions write the buffers. -/

namespace Sys2Proof.Machine

/-! ### One rule per case of a step (spec/20_memory.md R45) -/

/-- With nothing presented the block is idle (spec/70_reset_and_hazards.md R154). -/
theorem step_of_idle {s : State} (hin : s.inputs = []) : step s = .next s := by
  simp [step, State.fetch, hin]

theorem step_of_bars {s : State} {p : Packet} {q : List Packet} {r : Refusal} (hin : s.inputs = p :: q)
    (hb : s.bars p = some r) : step s = .refused r := by
  simp [step, State.fetch, hin, hb]

theorem step_of_reject {s : State} {p : Packet} {q : List Packet} {r : Reject} (hin : s.inputs = p :: q)
    (ht : s.Takes p) (hd : decode s.cfg p = .reject r) : step s = .refused (.undecodable r) := by
  simp [step, State.fetch, hin, (s.bars_eq_none_iff p).mpr ht, hd]

theorem step_of_launchBars {s : State} {p : Packet} {q : List Packet} {i : Instr} {r : Refusal}
    (hin : s.inputs = p :: q) (ht : s.Takes p) (hd : decode s.cfg p = .instr i) (hl : s.launchBars i = some r) : step s = .refused r := by
  simp [step, State.fetch, hin, (s.bars_eq_none_iff p).mpr ht, hd, hl]

/-- A packet that the contexts let be taken, and the launch premise its instruction run, is run to its end. -/
theorem step_of_launches {s : State} {p : Packet} {q : List Packet} {i : Instr} (hin : s.inputs = p :: q)
    (ht : s.Takes p) (hd : decode s.cfg p = .instr i) (hl : s.Launches i) :
    step s = endTransaction (exec i (s.take p q)) := by
  simp [step, State.fetch, hin, (s.bars_eq_none_iff p).mpr ht, hd, (s.launchBars_eq_none_iff i).mpr hl]

/-! ### Why a packet or an instruction is refused -/

/-- A primitive is never taken between transactions (spec/40_primitives.md R78). -/
theorem State.bars_prim_alone {s : State} (hc : s.context = none) (b : Option Byte) (w : Byte) :
    s.bars (.prim b w) = some .primitiveAlone := by
  simp [State.bars, hc]

/-- No second transaction begins inside one (spec/20_memory.md R45, spec/60_exceptions.md R145). -/
theorem State.bars_inside {s : State} {p : Packet} (hp : ∀ b w, p ≠ .prim b w) (hc : s.context ≠ none) :
    s.bars p = some .insideTransaction := by
  cases p with
  | prim b w => exact absurd rfl (hp b w)
  | cmd f => simp [State.bars, hc]
  | evt sr dr => simp [State.bars, hc]
  | reset => simp [State.bars, hc]

theorem State.launchBars_reset {s : State} (h : s.started = true) : s.launchBars .reset = some .resetInRun := by
  simp [State.launchBars, h]

theorem State.launchBars_init {s : State} (h : s.mode ≠ .ready) : s.launchBars .init = some .initNotIdle := by
  simp [State.launchBars, h]

theorem State.launchBars_of_followsInit {s : State} {i : Instr} (hi : FollowsInit i) (h : s.initialised = false) :
    s.launchBars i = some .beforeInit := by
  rcases s.launchBars_cases i with ⟨⟨-, -, hl⟩, -⟩ | ⟨rfl, -⟩ | ⟨rfl, -⟩ | ⟨-, -, hb⟩
  · simp [h] at hl
    exact absurd hi hl
  · exact hi.elim
  · exact hi.elim
  · exact hb

/-- On the command port: INIT, a reserved opcode, or a command that follows INIT (spec/30_encoding.md R58). -/
theorem followsInit_of_decode_cmd {c : Config} {f : List Byte} {i : Instr} (hd : decode c (.cmd f) = .instr i)
    (hi : i ≠ .init) (hres : ∀ op operands, i ≠ .cmdReserved op operands) : FollowsInit i := by
  have hs := decode_source c _ i hd
  cases i
  case init => exact absurd rfl hi
  case cmdReserved op operands => exact absurd rfl (hres op operands)
  case isready | transmit | read | geterr | getrxlen | getrxbyte => trivial
  all_goals exact hs.elim

/-- When the launch premise lets a command run (spec/70_reset_and_hazards.md R157, R169). -/
theorem State.launches_of_decode_cmd {s : State} {c : Config} {f : List Byte} {i : Instr}
    (hd : decode c (.cmd f) = .instr i) (hready : i = .init → s.mode = .ready)
    (hinit : i ≠ .init → s.initialised = true ∨ ∃ op operands, i = .cmdReserved op operands) : s.Launches i := by
  refine ⟨?_, hready, fun hfollows => ?_⟩
  · rintro rfl
    exact (decode_source c _ _ hd).elim
  · have hne : i ≠ .init := by
      rintro rfl
      exact hfollows
    rcases hinit hne with h | ⟨op, operands, rfl⟩
    · exact h
    · exact hfollows.elim

theorem State.launches_reset {s : State} (h : s.started = false) : s.Launches .reset :=
  ⟨fun _ => h, nofun, nofun⟩

/-! ### The state a packet's instruction runs on (spec/60_exceptions.md R147) -/

theorem State.take_cmd (s : State) (f : List Byte) (q : List Packet) :
    s.take (.cmd f) q = { s with inputs := q, context := some .host, started := true } := rfl

theorem State.take_evt (s : State) (sr dr : Byte) (q : List Packet) :
    s.take (.evt sr dr) q = { s with inputs := q, context := some .handler, started := true } := rfl

/-- A primitive runs in the context under way (spec/40_primitives.md R78). -/
theorem State.take_prim (s : State) (b : Option Byte) (w : Byte) (q : List Packet) :
    s.take (.prim b w) q = { s with inputs := q, started := true } := rfl

theorem State.take_reset {s : State} (hc : s.context = none) (q : List Packet) :
    s.take .reset q = { s with inputs := q, started := true } := by
  simp [State.take, State.contextFor, hc]

/-- Settles O6: each clause is the rule of its case, on the state that `State.take` gives, written out. -/
theorem stepRunsTheDecodedTransaction : Obligations.StepRunsTheDecodedTransaction := by
  refine ⟨?cmd, ?evt, ?reset, ?prim, fun _ => rfl, fun _ => rfl, fun _ => rfl, ?cmdReject, ?primReject, ?alone, ?inside,
    ?resetInRun, ?initNotIdle, ?beforeInit, fun _ => step_of_idle⟩
  case cmd =>
    intro s f q i hin hc hd hready hinit
    rw [← s.take_cmd f q]
    exact step_of_launches hin hc hd (State.launches_of_decode_cmd hd hready hinit)
  case evt =>
    intro s sr dr q i hin hc hd
    rw [← s.take_evt sr dr q]
    exact step_of_launches hin hc hd (s.launches_of_decode s.cfg _ i hd nofun nofun)
  case reset =>
    intro s q hin hc hs
    rw [← State.take_reset hc]
    exact step_of_launches hin hc rfl (State.launches_reset hs)
  case prim =>
    intro s b w q i hin hc hd
    rw [← s.take_prim b w q]
    exact step_of_launches hin hc hd (s.launches_of_decode s.cfg _ i hd nofun nofun)
  case cmdReject => exact fun s f q r hin hc hd => step_of_reject hin hc hd
  case primReject => exact fun s b w q r hin hc hd => step_of_reject hin hc hd
  case alone => exact fun s b w q hin hc => step_of_bars hin (State.bars_prim_alone hc b w)
  case inside => exact fun s p q hin hp hc => step_of_bars hin (State.bars_inside hp hc)
  case resetInRun =>
    intro s q hin hc hs
    exact step_of_launchBars hin hc rfl (State.launchBars_reset hs)
  case initNotIdle =>
    intro s q hin hc hm
    exact step_of_launchBars hin hc rfl (State.launchBars_init hm)
  case beforeInit =>
    intro s f q i hin hc hd hi h hres
    exact step_of_launchBars hin hc hd (State.launchBars_of_followsInit (followsInit_of_decode_cmd hd hi hres) h)

/-! ### Who writes the buffers and their lengths -/

/-- TXBUF and TXLEN are written by an accepted TRANSMIT or READ only, but for a reset (spec/20_memory.md R40,
spec/10_state.md R21). -/
theorem ExecNext.tx_eq {i : Instr} {s t : State} (h : ExecNext i s t) (hr : i ≠ .reset)
    (htx : ∀ rs data, i ≠ .transmit rs data) (hrd : ∀ rs addr n, i ≠ .read rs addr n) :
    t.txbuf = s.txbuf ∧ t.txlen = s.txlen := by
  cases h
  case txLong | txBusy | txReady | txHeld => exact absurd rfl (htx _ _)
  case rxLong | rxBusy | rxNoTx | rxReady | rxHeld => exact absurd rfl (hrd _ _ _)
  case reset => exact absurd rfl hr
  all_goals exact ⟨rfl, rfl⟩

/-- RXBUF is written by the store of a received byte only, but for a reset (spec/20_memory.md R41). -/
theorem ExecNext.rxbuf_eq {i : Instr} {s t : State} (h : ExecNext i s t) (hr : i ≠ .reset)
    (hack : ∀ sr dr, i ≠ .evtRxdAck sr dr) (hnack : ∀ sr dr, i ≠ .evtRxdNack sr dr) : t.rxbuf = s.rxbuf := by
  cases h
  case rxAck | rxNack => exact absurd rfl (hack _ _)
  case rxStart | rxStop => exact absurd rfl (hnack _ _)
  case reset => exact absurd rfl hr
  all_goals rfl

/-- RXLEN is written by READ only, but for a reset (spec/10_state.md R25). -/
theorem ExecNext.rxlen_eq {i : Instr} {s t : State} (h : ExecNext i s t) (hr : i ≠ .reset)
    (hrd : ∀ rs addr n, i ≠ .read rs addr n) : t.rxlen = s.rxlen := by
  cases h
  case rxLong | rxBusy | rxNoTx | rxReady | rxHeld => exact absurd rfl (hrd _ _ _)
  case reset => exact absurd rfl hr
  all_goals rfl

/-- Settles O34, buffer by buffer. -/
theorem onlyWritersOfTheBuffers : Obligations.OnlyWritersOfTheBuffers := by
  intro i s t hx hr
  have h := exec_next i s t hx
  exact ⟨h.tx_eq hr, h.rxbuf_eq hr, h.rxlen_eq hr⟩

end Sys2Proof.Machine
end

section
/-! PROOFS of the statements about the encoding (spec/30_encoding.md): the round trips of encoder and decoder, the frames
that are refused, and the control words that are written. One walk through the frame decoder (`decodeFrame_cases`) serves
both the frames that decode and those that do not. -/

namespace Sys2Proof.Machine

open Sys2Proof.Certificates Sys2Proof.Laws

/-! ### The bytes of a frame (spec/30_encoding.md R59) -/

/-- `flags[7:1]` is 0 where the byte is 0 or 1. -/
theorem flagsLegal_eq (flags : Byte) : flagsLegal flags = decide (flags.toNat < 2) := by
  have hlt := flags.isLt
  rw [Bool.eq_iff_iff]
  simp only [flagsLegal, beq_iff_eq, decide_eq_true_eq, ← BitVec.toNat_inj, BitVec.extractLsb'_toNat,
    Nat.shiftRight_eq_div_pow, BitVec.toNat_ofNat]
  omega

@[simp] theorem flagsLegal_flagsByte (rs : Bool) : flagsLegal (flagsByte rs) = true := by
  cases rs <;> rfl

@[simp] theorem flagsByte_getElem_zero (rs : Bool) : (flagsByte rs)[0] = rs := by
  cases rs <;> rfl

/-- A legal `flags` byte is the one its bit 0 encodes to. -/
theorem flagsByte_of_lt_two {flags : Byte} (h : flags.toNat < 2) : flagsByte (flags.getLsbD 0) = flags := by
  have hcases : flags = 0#8 ∨ flags = 1#8 := by bv_omega
  rcases hcases with rfl | rfl <;> rfl

@[simp] theorem flagsByte_toNat_lt_two (rs : Bool) : (flagsByte rs).toNat < 2 := by
  cases rs <;> decide

/-- Bit 7 of an address byte. -/
theorem getLsbD_seven_iff (addr : Byte) : addr.getLsbD 7 = true ↔ 128 ≤ addr.toNat := by
  rw [← show addr.msb = addr.getLsbD 7 from BitVec.msb_eq_getLsbD_last addr, BitVec.msb_eq_decide]
  simp

/-- An address byte below 128 is its seven low bits. -/
theorem setWidth_extractLsb'_of_lt {addr : Byte} (h : addr.toNat < 128) :
    (addr.extractLsb' 0 7).setWidth 8 = addr := by
  apply BitVec.eq_of_toNat_eq
  simp
  omega

/-! ### The frame decoder, walked through once -/

/-- `FrameOf f i`: `f` is the frame of the command `i` (spec/30_encoding.md R58). -/
inductive FrameOf : List Byte → Instr → Prop
  | init : FrameOf [0x00#8] .init
  | isready : FrameOf [0x01#8] .isready
  | transmit (rs data) (hlen : data.length ≤ 255) :
      FrameOf (0x02#8 :: flagsByte rs :: BitVec.ofNat 8 data.length :: data) (.transmit rs data)
  | read (rs addr n) : FrameOf [0x03#8, flagsByte rs, addr.setWidth 8, n] (.read rs addr n)
  | geterr : FrameOf [0x04#8] .geterr
  | getrxlen : FrameOf [0x05#8] .getrxlen
  | getrxbyte (k) : FrameOf [0x06#8, k] (.getrxbyte k)
  | cmdReserved (op operands) (hop : 7 ≤ op.toNat) : FrameOf (op :: operands) (.cmdReserved op operands)

/-- What the frame decoder answers on `f`: an instruction whose frame `f` is, or a rejection, and then `f` is in R73's
list whatever the parameters. -/
def DecodesRightly (f : List Byte) (d : Decoded) : Prop :=
  (∃ i, d = .instr i ∧ FrameOf f i) ∨ (∃ r, d = .reject r ∧ ∀ c, Refusable c f)

theorem decodeBare_cases {op : Byte} {i : Instr} (hop : op = 0x00#8 ∨ op = 0x01#8 ∨ op = 0x04#8 ∨ op = 0x05#8)
    (hf : FrameOf [op] i) (rest : List Byte) : DecodesRightly (op :: rest) (decodeBare op i rest) := by
  cases rest with
  | nil => exact .inl ⟨i, rfl, hf⟩
  | cons b bs => exact .inr ⟨_, rfl, fun _ => .inr (.inl ⟨hop, nofun⟩)⟩

theorem decodeTransmit_cases (rest : List Byte) : DecodesRightly (0x02#8 :: rest) (decodeTransmit rest) := by
  rcases rest with _ | ⟨flags, _ | ⟨len, data⟩⟩
  · exact .inr ⟨_, rfl, fun _ => by simp [Refusable]⟩
  · exact .inr ⟨_, rfl, fun _ => by simp [Refusable]⟩
  · rw [decodeTransmit]
    split
    · next hflags =>
      replace hflags : 1 < flags.toNat := by simpa [flagsLegal_eq] using hflags
      exact .inr ⟨_, rfl, fun _ => by simp [Refusable]; omega⟩
    · next hflags =>
      replace hflags : flags.toNat < 2 := by simpa [flagsLegal_eq] using hflags
      split
      · exact .inr ⟨_, rfl, fun _ => by simp [Refusable]; omega⟩
      · split
        · exact .inr ⟨_, rfl, fun _ => by simp [Refusable]; omega⟩
        · have hlen : data.length = len.toNat := by omega
          have hframe := FrameOf.transmit (flags.getLsbD 0) data (by have := len.isLt; omega)
          rw [flagsByte_of_lt_two hflags, hlen, BitVec.ofNat_toNat, BitVec.setWidth_eq] at hframe
          exact .inl ⟨_, rfl, hframe⟩

theorem decodeRead_cases (rest : List Byte) : DecodesRightly (0x03#8 :: rest) (decodeRead rest) := by
  rcases rest with _ | ⟨flags, _ | ⟨addr, _ | ⟨n, _ | ⟨b, bs⟩⟩⟩⟩
  case cons.cons.cons.nil =>
    rw [decodeRead]
    split
    · next hflags =>
      replace hflags : 1 < flags.toNat := by simpa [flagsLegal_eq] using hflags
      exact .inr ⟨_, rfl, fun _ => by simp [Refusable]; omega⟩
    · next hflags =>
      replace hflags : flags.toNat < 2 := by simpa [flagsLegal_eq] using hflags
      split
      · next haddr => exact .inr ⟨_, rfl, fun _ => by simp [Refusable, (getLsbD_seven_iff addr).mp haddr]⟩
      · next haddr =>
        have hframe := FrameOf.read (flags.getLsbD 0) (addr.extractLsb' 0 7) n
        rw [flagsByte_of_lt_two hflags, setWidth_extractLsb'_of_lt (by rw [getLsbD_seven_iff] at haddr; omega)] at hframe
        exact .inl ⟨_, rfl, hframe⟩
  all_goals exact .inr ⟨_, rfl, fun _ => by simp [Refusable]⟩

theorem decodeGetrxbyte_cases (rest : List Byte) : DecodesRightly (0x06#8 :: rest) (decodeGetrxbyte rest) := by
  rcases rest with _ | ⟨k, _ | ⟨b, bs⟩⟩
  · exact .inr ⟨_, rfl, fun _ => by simp [Refusable]⟩
  · exact .inl ⟨_, rfl, .getrxbyte k⟩
  · exact .inr ⟨_, rfl, fun _ => by simp [Refusable]⟩

/-- Opcodes 0x07 to 0xFF are the reserved ones, whatever follows. -/
theorem decodeFrame_reserved {op : Byte} (hop : 7 ≤ op.toNat) (operands : List Byte) :
    decodeFrame (op :: operands) = .instr (.cmdReserved op operands) := by
  simp only [decodeFrame]
  split
  case h_8 => rfl
  all_goals omega

theorem decodeFrame_cases (f : List Byte) : DecodesRightly f (decodeFrame f) := by
  rcases f with _ | ⟨op, rest⟩
  · exact .inr ⟨_, rfl, fun _ => trivial⟩
  · by_cases hop : 7 ≤ op.toNat
    · exact .inl ⟨_, decodeFrame_reserved hop rest, .cmdReserved op rest hop⟩
    · obtain rfl | rfl | rfl | rfl | rfl | rfl | rfl : op = 0#8 ∨ op = 1#8 ∨ op = 2#8 ∨ op = 3#8 ∨ op = 4#8 ∨
          op = 5#8 ∨ op = 6#8 := by bv_omega
      · exact decodeBare_cases (by simp) .init rest
      · exact decodeBare_cases (by simp) .isready rest
      · exact decodeTransmit_cases rest
      · exact decodeRead_cases rest
      · exact decodeBare_cases (by simp) .geterr rest
      · exact decodeBare_cases (by simp) .getrxlen rest
      · exact decodeGetrxbyte_cases rest

/-- The frame of a command decodes to it. -/
theorem FrameOf.decode_eq {f : List Byte} {i : Instr} (h : FrameOf f i) (c : Config) : decode c (.cmd f) = .instr i := by
  cases h
  case transmit rs data hlen =>
    have hmod : data.length % 256 = data.length := Nat.mod_eq_of_lt (by omega)
    simp [decode, decodeFrame, decodeTransmit, hmod]
  case read rs addr n =>
    have haddr : addr.toNat < 128 := addr.isLt
    have hlow : (addr.setWidth 8).extractLsb' 0 7 = addr := BitVec.eq_of_toNat_eq (by simp; omega)
    simp [decode, decodeFrame, decodeRead, hlow]
  case cmdReserved op operands hop => exact decodeFrame_reserved hop operands
  all_goals rfl

theorem decode_cmd_iff (c : Config) (f : List Byte) (i : Instr) : decode c (.cmd f) = .instr i ↔ FrameOf f i := by
  refine ⟨fun hd => ?_, fun h => h.decode_eq c⟩
  rcases decodeFrame_cases f with ⟨j, hj, hf⟩ | ⟨r, hr, -⟩
  · cases hj.symm.trans hd
    exact hf
  · cases hr.symm.trans hd

/-! ### Events and primitives -/

/-- An event that carries a named status decodes to that status' rule (spec/30_encoding.md R65, R66). -/
theorem decode_evt_of_carries {c : Config} (hc : c.Wf) (st : Status) {sr : Byte} (h : carries c st sr) (dr : Byte) :
    decode c (.evt sr dr) = .instr (eventInstr (some st) sr dr) := by
  rw [decode, statusValue, h, classify_code c hc]

/-- An event that carries no named status is an unlisted one (spec/30_encoding.md R67). -/
theorem decode_evt_of_unlisted {c : Config} {sr : Byte} (h : ∀ st ∈ Status.all, ¬ carries c st sr) (dr : Byte) :
    decode c (.evt sr dr) = .instr (.evtUnlisted sr) := by
  rw [decode, statusValue, classify_eq_none c _ h, eventInstr]

theorem packControl_eq_iff {l : CrLayout} (h : l.positions.Nodup) (v w : ControlWord) :
    packControl l v = packControl l w ↔ v = w :=
  ⟨packControl_inj l h v w, congrArg _⟩

/-! ### Round trips -/

/-- Settles O2, by the port each instruction is encoded at: a command's packet is its frame, an event's status is
classified by its own code, and the five control words are distinct bytes. -/
theorem decodeOfEncodeIsIdentity : Obligations.DecodeOfEncodeIsIdentity := by
  intro c i hc hi
  have hl : c.crLayout.positions.Nodup := hc.2.2.2.2.2
  cases i
  case init => exact FrameOf.init.decode_eq c
  case isready => exact FrameOf.isready.decode_eq c
  case transmit rs data => exact (FrameOf.transmit rs data (of_decide_eq_true hi)).decode_eq c
  case read rs addr n => exact (FrameOf.read rs addr n).decode_eq c
  case geterr => exact FrameOf.geterr.decode_eq c
  case getrxlen => exact FrameOf.getrxlen.decode_eq c
  case getrxbyte k => exact (FrameOf.getrxbyte k).decode_eq c
  case cmdReserved op operands => exact (FrameOf.cmdReserved op operands (of_decide_eq_true hi)).decode_eq c
  case evtBuserr sr => exact decode_evt_of_carries hc .buserr (PortAndHead.evtBuserr sr c hi) 0#8
  case evtStart sr => exact decode_evt_of_carries hc .start (PortAndHead.evtStart sr c hi) 0#8
  case evtRstart sr => exact decode_evt_of_carries hc .rstart (PortAndHead.evtRstart sr c hi) 0#8
  case evtSlawAck sr => exact decode_evt_of_carries hc .slawAck (PortAndHead.evtSlawAck sr c hi) 0#8
  case evtSlawNack sr => exact decode_evt_of_carries hc .slawNack (PortAndHead.evtSlawNack sr c hi) 0#8
  case evtTxdAck sr => exact decode_evt_of_carries hc .txdAck (PortAndHead.evtTxdAck sr c hi) 0#8
  case evtTxdNack sr => exact decode_evt_of_carries hc .txdNack (PortAndHead.evtTxdNack sr c hi) 0#8
  case evtArbLost sr => exact decode_evt_of_carries hc .arbLost (PortAndHead.evtArbLost sr c hi) 0#8
  case evtSlarAck sr => exact decode_evt_of_carries hc .slarAck (PortAndHead.evtSlarAck sr c hi) 0#8
  case evtSlarNack sr => exact decode_evt_of_carries hc .slarNack (PortAndHead.evtSlarNack sr c hi) 0#8
  case evtRxdAck sr dr => exact decode_evt_of_carries hc .rxdAck (PortAndHead.evtRxdAck sr dr c hi) dr
  case evtRxdNack sr dr => exact decode_evt_of_carries hc .rxdNack (PortAndHead.evtRxdNack sr dr c hi) dr
  case evtNoinfo sr => exact decode_evt_of_carries hc .noinfo (PortAndHead.evtNoinfo sr c hi) 0#8
  case evtUnlisted sr => exact decode_evt_of_unlisted (PortAndHead.evtUnlisted sr c hi) 0#8
  case sendStart | sendStop | sendTransmit | sendAck | sendNack | initCw =>
    simp only [encode, decode, decodePrimitive, packControl_eq_iff hl]
    rfl
  case reset => rfl

/-- Settles O3: a frame that decodes is `FrameOf` its instruction, whose fields are then in range. -/
theorem decodedFrameIsTheEncoding : Obligations.DecodedFrameIsTheEncoding := by
  intro c f i hd
  cases (decode_cmd_iff c f i).mp hd
  case transmit rs data hlen => exact ⟨decide_eq_true hlen, rfl⟩
  case cmdReserved op operands hop => exact ⟨decide_eq_true hop, rfl⟩
  all_goals exact ⟨rfl, rfl⟩

/-- Settles O1: the frames and events by the rules above, the two primitives by computation. -/
theorem sampleEncodingsDecode : Obligations.SampleEncodingsDecode :=
  ⟨FrameOf.init.decode_eq _,
    (FrameOf.transmit false [0xA0#8, 0x00#8] (by decide)).decode_eq _,
    (FrameOf.read false 0x50#7 3#8).decode_eq _,
    (FrameOf.getrxbyte 2#8).decode_eq _,
    decode_evt_of_carries Config.default_wf .start rfl _,
    decode_evt_of_carries Config.default_wf .rxdAck rfl _,
    decode_evt_of_unlisted (by decide) _,
    by decide,
    by decide⟩

/-! ### The frames that are refused (spec/30_encoding.md R73) -/

/-- The commands whose meaning is a refusal: a reserved opcode, and GETRXBYTE out of range. -/
def RefusedByMeaning (c : Config) (i : Instr) : Prop :=
  (∃ op operands, i = .cmdReserved op operands) ∨ ∃ k, i = .getrxbyte k ∧ c.rxMaxLen ≤ k.toNat

theorem exec_refused_iff (i : Instr) (s : State) : (∃ r, exec i s = .refused r) ↔ RefusedByMeaning s.cfg i := by
  constructor
  · rintro ⟨r, hx⟩
    rcases exec_refused i s r hx with ⟨op, operands, hi, -⟩ | ⟨k, hi, hk, -⟩
    · exact .inl ⟨op, operands, hi⟩
    · exact .inr ⟨k, hi, hk⟩
  · rintro (⟨op, operands, rfl⟩ | ⟨k, rfl, hk⟩)
    · exact ⟨_, rfl⟩
    · exact ⟨.rxIndexOutOfRange k, by simp [exec, execGetrxbyte, State.readRx, Nat.not_lt_of_le hk]⟩

/-- Of the frames that decode, R73 lists those whose instruction's meaning is a refusal. -/
theorem FrameOf.refusable_iff {f : List Byte} {i : Instr} (h : FrameOf f i) (c : Config) :
    Refusable c f ↔ RefusedByMeaning c i := by
  cases h
  case transmit rs data hlen =>
    have hflags := flagsByte_toNat_lt_two rs
    simp [Refusable, RefusedByMeaning]
    omega
  case read rs addr n =>
    have hflags := flagsByte_toNat_lt_two rs
    have haddr := addr.isLt
    simp [Refusable, RefusedByMeaning]
    omega
  case cmdReserved op operands hop => exact ⟨fun _ => .inl ⟨op, operands, rfl⟩, fun _ => .inl hop⟩
  all_goals simp [Refusable, RefusedByMeaning]

/-- Of the frames that decode, the launch premise bars those that break it, and no reserved opcode. -/
theorem FrameOf.launches_iff {f : List Byte} {i : Instr} (h : FrameOf f i) (s : State) :
    s.Launches i ↔ ¬ BreaksLaunchPremise s f ∨ ∃ op operands, i = .cmdReserved op operands := by
  cases h
  case init => simp [State.Launches, BreaksLaunchPremise]
  case cmdReserved op operands hop => exact iff_of_true ⟨nofun, nofun, nofun⟩ (.inr ⟨op, operands, rfl⟩)
  all_goals simp [State.Launches, BreaksLaunchPremise]

/-- Between transactions a frame is refused exactly when R73 lists it or it breaks the launch premise. -/
theorem step_cmd_refused_iff {s : State} {f : List Byte} {q : List Packet} (hc : s.context = none)
    (hin : s.inputs = .cmd f :: q) :
    (∃ r, step s = .refused r) ↔ Refusable s.cfg f ∨ BreaksLaunchPremise s f := by
  rcases decodeFrame_cases f with ⟨i, hd, hf⟩ | ⟨r, hd, hbad⟩
  · by_cases hl : s.Launches i
    · simp only [step_of_launches hin hc hd hl, endTransaction_eq_refused, exec_refused_iff, State.take_cfg,
        hf.refusable_iff]
      rcases (hf.launches_iff s).mp hl with hb | hres
      · exact (or_iff_left hb).symm
      · exact iff_of_true (.inl hres) (.inl (.inl hres))
    · obtain ⟨r, hr⟩ := Option.ne_none_iff_exists'.mp (mt (s.launchBars_eq_none_iff i).mp hl)
      obtain ⟨hb, -⟩ := not_or.mp (mt (hf.launches_iff s).mpr hl)
      exact iff_of_true ⟨r, step_of_launchBars hin hc hd hr⟩ (.inr (not_not.mp hb))
  · exact iff_of_true ⟨_, step_of_reject hin hc hd⟩ (.inl (hbad s.cfg))

/-- Settles O5: both directions of its first clause are `step_cmd_refused_iff`. -/
theorem exactlyTheListedFramesAreRefused : Obligations.ExactlyTheListedFramesAreRefused :=
  ⟨fun _ _ _ hc hin =>
    ⟨fun hf => (step_cmd_refused_iff hc hin).mpr (.inl hf),
      fun hb hr => ((step_cmd_refused_iff hc hin).mp hr).resolve_right hb⟩,
    fun _ _ _ => rfl⟩

/-! ### The control words that are written (spec/30_encoding.md R71, R72) -/

/-- CR holds one of the six control words, or none yet, and the trace no other. -/
def ControlLegal (s : State) : Prop := TraceLegal s ∧ s.cr ∈ cwOff :: legalControlWords

theorem ControlLegal.writeCr {s : State} (h : ControlLegal s) {w : ControlWord} (hw : w ∈ legalControlWords) :
    ControlLegal (s.writeCr w) := by
  refine ⟨fun v hv => ?_, List.mem_cons_of_mem _ hw⟩
  rcases List.mem_append.mp hv with hold | hnew
  · exact h.1 v hold
  · cases List.mem_singleton.mp hnew
    exact hw

theorem ControlLegal.writeDr {s : State} (h : ControlLegal s) (b : Byte) : ControlLegal (s.writeDr b) :=
  ⟨fun v hv => h.1 v (by simpa using hv), h.2⟩

theorem ControlLegal.writeBr {s : State} (h : ControlLegal s) (v : Nat) : ControlLegal (s.writeBr v) :=
  ⟨fun w hw => h.1 w (by simpa using hw), h.2⟩

/-- Every instruction writes control words of the six only; RESET empties the trace. -/
theorem ExecNext.keeps_controlLegal {i : Instr} {s t : State} (h : ExecNext i s t) (hs : ControlLegal s) :
    ControlLegal t := by
  cases h
  case init => exact (hs.writeBr s.cfg.brInit).writeCr (w := cwEnable) (by decide)
  case initCw => exact hs.writeCr (w := cwEnable) (by decide)
  case txHeld | rxHeld | txStep | sendTransmit => exact (hs.writeDr _).writeCr (w := cwXmit) (by decide)
  case txReady | rxReady | txStart | rxStart | failStart | sendStart => exact hs.writeCr (w := cwStart) (by decide)
  case txStop | rxStop | failStop | buserr | sendStop => exact hs.writeCr (w := cwStop) (by decide)
  case slarAck | rxAck | sendAck => exact hs.writeCr (w := cwAck) (by decide)
  case slarNack | rxNack | sendNack => exact hs.writeCr (w := cwNack) (by decide)
  case reset => exact ⟨nofun, List.mem_cons_self ..⟩
  all_goals exact hs

/-- Settles O39: what every instruction keeps, and what looks at CR and the trace only, every step keeps. -/
theorem traceHoldsOnlyTheSixControlWords : Obligations.TraceHoldsOnlyTheSixControlWords := fun s t htrace hcr =>
  step_keeps ControlLegal (fun _ _ _ _ hs => hs) (fun _ i s t _ hs hx => (exec_next i s t hx).keeps_controlLegal hs) s t
    ⟨htrace, hcr⟩

end Sys2Proof.Machine
end

section
/-! PROOFS of the statements about the primitives (spec/40_primitives.md): their effects, that none is run on its own,
and the complete list of what a transaction writes to the peripheral. -/

namespace Sys2Proof.Machine

open Sys2Proof.Certificates

/-! ### The effects of the primitives (spec/40_primitives.md R79 to R83) -/

/-- A control word with `evack = 1` clears EVF (spec/10_state.md R33). -/
theorem State.writeCr_of_evack (s : State) {w : ControlWord} (hw : w.evack = true) :
    s.writeCr w = { s with cr := w, evf := false, trace := s.trace ++ [.cr w] } := by
  simp [State.writeCr, hw]

/-- A control word with `evack = 0` leaves EVF (spec/10_state.md R33). -/
theorem State.writeCr_of_not_evack (s : State) {w : ControlWord} (hw : w.evack = false) :
    s.writeCr w = { s with cr := w, trace := s.trace ++ [.cr w] } := by
  simp [State.writeCr, hw]

/-- SEND_TRANSMIT writes DR, then CR (spec/40_primitives.md R81). -/
theorem State.issueTransmit_eq (s : State) (b : Byte) :
    s.issueTransmit b =
      { s with dr := b, cr := cwXmit, evf := false, trace := s.trace ++ [.dr b, .cr cwXmit] } := by
  rw [State.issueTransmit, State.writeCr_of_evack _ rfl]
  simp [State.writeDr]

/-- Settles O25: each primitive is one write of CR, SEND_TRANSMIT's after one of DR; INIT_CW's alone has `evack = 0`. -/
theorem primitiveEffects : Obligations.PrimitiveEffects := by
  refine ⟨fun s => ⟨?start, ?stop, fun b => ?transmit, ?ack, ?nack, ?initCw⟩, by decide⟩
  case transmit => exact congrArg _ (s.issueTransmit_eq b)
  case initCw => exact congrArg _ (s.writeCr_of_not_evack rfl)
  all_goals exact congrArg _ (s.writeCr_of_evack rfl)

/-! ### No primitive is run on its own (spec/40_primitives.md R78) -/

/-- Every step that takes a packet ends between transactions (spec/60_exceptions.md R147). -/
theorem step_leaves_context {s t : State} (hin : s.inputs ≠ []) (h : step s = .next t) : t.context = none := by
  rcases step_next s t h with ⟨hnil, -⟩ | ⟨-, -, -, u, -, -, -, -, -, rfl⟩
  · exact absurd hnil hin
  · rfl

/-- A run of one step more is a step, then the run from where it led. -/
theorem run_succ_next {M : Host.Core} {k : Nat} {s t : M.State} (h : M.run (k + 1) s = .next t) :
    ∃ u, M.step s = .next u ∧ M.run k u = .next t := by
  rw [Host.Core.run] at h
  split at h
  · next u hs => exact ⟨u, hs, h⟩
  · cases h
  · cases h

/-- The induction over a run, once: a relation that holds from each state to itself, and still holds when a step is put
before it, holds from the start of every run to the state it answers. -/
theorem run_next_induction {M : Host.Core} (R : M.State → M.State → Prop) (refl : ∀ s, R s s)
    (head : ∀ s u t, M.step s = .next u → R u t → R s t) :
    ∀ (k : Nat) (s t : M.State), M.run k s = .next t → R s t
  | 0, s, t, h => by
    cases h
    exact refl s
  | k + 1, s, t, h => by
    obtain ⟨u, hs, hrun⟩ := run_succ_next h
    exact head s u t hs (run_next_induction R refl head k u t hrun)

/-- Where `s` is between transactions so is `t`, and the packets taken on the way, in order, hold no primitive. -/
def KeepsPrimitivesOut (s t : State) : Prop :=
  s.context = none → t.context = none ∧ ∃ taken, s.inputs = taken ++ t.inputs ∧ ∀ p ∈ taken, ∀ b w, p ≠ .prim b w

theorem KeepsPrimitivesOut.refl (s : State) : KeepsPrimitivesOut s s :=
  fun hc => ⟨hc, [], rfl, nofun⟩

theorem KeepsPrimitivesOut.trans {s u t : State} (hsu : KeepsPrimitivesOut s u) (hut : KeepsPrimitivesOut u t) :
    KeepsPrimitivesOut s t := by
  intro hc
  obtain ⟨hcu, xs, hs, hxs⟩ := hsu hc
  obtain ⟨hct, ys, hu, hys⟩ := hut hcu
  exact ⟨hct, xs ++ ys, by rw [hs, hu, List.append_assoc], fun p hp => (List.mem_append.mp hp).elim (hxs p) (hys p)⟩

/-- A packet taken between transactions is no primitive, and its step ends between transactions. -/
theorem step_keepsPrimitivesOut {s t : State} (h : step s = .next t) : KeepsPrimitivesOut s t := by
  rcases step_next s t h with ⟨-, rfl⟩ | ⟨p, q, i, u, hin, htakes, -, -, hx, rfl⟩
  · exact .refl t
  · intro hc
    have hq : u.inputs = q := (exec_next i _ u hx).inputs_eq
    have hp : ∀ b w, p ≠ .prim b w := by
      rintro b w rfl
      exact htakes hc
    exact ⟨rfl, [p], by simp [hin, hq], by simpa using hp⟩

/-- Settles O47: the step's refusal, the end of a transaction, and the induction over a run. -/
theorem primitivesNeverRunAlone : Obligations.PrimitivesNeverRunAlone :=
  ⟨fun _ b w _ hc hin => step_of_bars hin (State.bars_prim_alone hc b w),
    fun _ _ => step_leaves_context,
    fun _ => rfl,
    fun k s t hc h =>
      run_next_induction (M := core) KeepsPrimitivesOut .refl (fun _ _ _ hs => (step_keepsPrimitivesOut hs).trans)
        k s t h hc⟩

/-! ### What a transaction writes to the peripheral (spec/40_primitives.md R84) -/

theorem armWrites_of_not_ready {s : State} (h : s.ready = false) (b : Byte) : armWrites s b = [] := by
  obtain ⟨hready, hheld⟩ := s.not_ready_iff.mp h
  unfold armWrites
  split
  case h_1 hm => exact absurd hm hready
  case h_2 hm => exact absurd hm hheld
  all_goals rfl

theorem armWrites_of_mode_ready {s : State} (h : s.mode = .ready) (b : Byte) : armWrites s b = [.cr cwStart] := by
  simp [armWrites, h]

theorem armWrites_of_held {s : State} (h : s.mode = .repeatedStartSent) (b : Byte) :
    armWrites s b = [.dr b, .cr cwXmit] := by
  simp [armWrites, h]

/-- The first byte after a copy to the start: the first byte copied, or the old one. -/
theorem Memory.read_copyIn_zero {m : Memory} (hm : m.wf) (data : List Byte) :
    (m.copyIn 0 data).read 0 = data.headD (m.read 0) := by
  rw [Memory.read_copyIn data m 0 0 hm]
  cases data <;> simp

/-- The three events of TXSTEP's row. -/
theorem issued_eq_txWrites {i : Instr} {sr : Byte} (s : State)
    (hi : i = .evtStart sr ∨ i = .evtSlawAck sr ∨ i = .evtTxdAck sr) : issued s i = txWrites s := by
  rcases hi with rfl | rfl | rfl <;> rfl

/-- The four failures that end a transfer. -/
theorem issued_eq_endWrite {i : Instr} {sr : Byte} (s : State)
    (hi : i = .evtSlarNack sr ∨ i = .evtSlawNack sr ∨ i = .evtTxdNack sr ∨ i = .evtArbLost sr) :
    issued s i = endWrite s := by
  rcases hi with rfl | rfl | rfl | rfl <;> rfl

/-- A receive store in range does not wrap `RXIDX`. -/
theorem State.succ_rxidx_toNat {s : State} (hs : s.Inv) (hlt : s.rxidx.toNat < s.cfg.rxMaxLen) :
    (s.rxidx + 1#8).toNat = s.rxidx.toNat + 1 := by
  have ⟨⟨_, ⟨_, hmax⟩, _⟩, _⟩ := hs
  simp only [BitVec.toNat_add, BitVec.toNat_ofNat]
  omega

/-- Every instruction but RESET adds exactly the writes R84 lists. The invariant is needed where a buffer is read after
a copy, where `RXIDX` goes up by one, and for READ, whose address frame fits. -/
theorem ExecNext.trace_eq {i : Instr} {s t : State} (h : ExecNext i s t) (hs : s.Inv) (hr : i ≠ .reset) :
    t.trace = s.trace ++ issued s i := by
  have ⟨⟨⟨htx, _⟩, _⟩, htxbuf, _⟩ := hs
  cases h
  case reset => exact absurd rfl hr
  case answer hi => rcases hi with ⟨rfl, -⟩ | ⟨rfl, -⟩ | ⟨rfl, -⟩ | ⟨k, rfl, -⟩ <;> simp [issued]
  case txLong hlen | rxLong hlen => simp [issued, hlen]
  case txBusy hlen hbusy | rxBusy hlen hbusy => simp [issued, armWrites_of_not_ready hbusy]
  case txReady hlen hm | rxReady hlen hm _ => simp [issued, Nat.not_lt_of_le hlen, armWrites_of_mode_ready hm]
  case txHeld hlen hm _ =>
    simp [issued, Nat.not_lt_of_le hlen, armWrites_of_held hm, Memory.read_copyIn_zero htxbuf]
  case rxHeld hlen hm _ =>
    simp [issued, Nat.not_lt_of_le hlen, armWrites_of_held hm, Memory.read_copyIn_zero htxbuf, addressFrame_eq]
  case rxNoTx hno => exact absurd htx (Nat.not_le_of_lt hno)
  case txStep hpend _ hi =>
    simp [issued_eq_txWrites s (hi.imp And.left (Or.imp And.left And.left)), txWrites, hpend]
  case txStart hend hrs hi =>
    simp [issued_eq_txWrites s (hi.imp And.left (Or.imp And.left And.left)), txWrites, endWrite, Nat.not_lt_of_le hend,
      hrs]
  case txStop hi hend hrs => simp [issued_eq_txWrites s hi, txWrites, endWrite, Nat.not_lt_of_le hend, hrs]
  case slarAck hmore => simp [issued, hmore]
  case slarNack hlast => simp [issued, Nat.not_lt_of_le hlast]
  case rxAck hlt hmore =>
    rw [State.succ_rxidx_toNat hs hlt] at hmore
    simp [issued, hmore]
  case rxNack hlt hlast =>
    rw [State.succ_rxidx_toNat hs hlt] at hlast
    simp [issued, Nat.not_lt_of_le hlast]
  case rxStart hrs | rxStop hrs => simp [issued, endWrite, hrs]
  case failStart hi hrs | failStop hi hrs => simp [issued_eq_endWrite s hi, endWrite, hrs]
  all_goals simp [issued]

/-! ### At most one of the writes is a primitive, and with none EVF stays -/

/-- At most one of the writes is a primitive (spec/40_primitives.md R84). -/
def AtMostOnePrimitive (ws : List PeriphWrite) : Prop := (ws.filter isPrimitive).length ≤ 1

theorem AtMostOnePrimitive.ite {c : Prop} [Decidable c] {xs ys : List PeriphWrite} (hx : AtMostOnePrimitive xs)
    (hy : AtMostOnePrimitive ys) : AtMostOnePrimitive (if c then xs else ys) := by
  split
  · exact hx
  · exact hy

theorem atMostOnePrimitive_nil : AtMostOnePrimitive [] := Nat.zero_le 1

theorem atMostOnePrimitive_cr (w : ControlWord) : AtMostOnePrimitive [.cr w] := List.length_filter_le ..

theorem atMostOnePrimitive_transmit (b : Byte) (w : ControlWord) : AtMostOnePrimitive [.dr b, .cr w] :=
  atMostOnePrimitive_cr w

theorem atMostOnePrimitive_endWrite (s : State) : AtMostOnePrimitive (endWrite s) :=
  .ite (atMostOnePrimitive_cr _) (atMostOnePrimitive_cr _)

theorem atMostOnePrimitive_txWrites (s : State) : AtMostOnePrimitive (txWrites s) :=
  .ite (atMostOnePrimitive_transmit _ _) (atMostOnePrimitive_endWrite s)

theorem atMostOnePrimitive_armWrites (s : State) (b : Byte) : AtMostOnePrimitive (armWrites s b) := by
  unfold armWrites
  split
  case h_1 => exact atMostOnePrimitive_cr _
  case h_2 => exact atMostOnePrimitive_transmit b _
  all_goals exact atMostOnePrimitive_nil

theorem atMostOnePrimitive_issued (s : State) (i : Instr) : AtMostOnePrimitive (issued s i) := by
  cases i
  case init => exact atMostOnePrimitive_cr cwEnable
  case transmit | read => exact .ite atMostOnePrimitive_nil (atMostOnePrimitive_armWrites s _)
  case evtStart | evtSlawAck | evtTxdAck => exact atMostOnePrimitive_txWrites s
  case evtRxdNack | evtSlarNack | evtSlawNack | evtTxdNack | evtArbLost => exact atMostOnePrimitive_endWrite s
  case evtSlarAck | evtRxdAck => exact .ite (atMostOnePrimitive_cr _) (atMostOnePrimitive_cr _)
  case sendTransmit b => exact atMostOnePrimitive_transmit b _
  case evtBuserr | sendStart | sendStop | sendAck | sendNack | initCw => exact atMostOnePrimitive_cr _
  all_goals exact atMostOnePrimitive_nil

/-- From `s` to `t` a primitive was written. -/
def WritesPrimitive (s t : State) : Prop :=
  ∃ ws, t.trace = s.trace ++ ws ∧ ∃ w ∈ ws, isPrimitive w = true

/-- EVF is as the delivery of `i` left it: set for an event, untouched for anything else. -/
def KeepsDeliveredFlag (i : Instr) (s t : State) : Prop :=
  (IsEvent i → t.evf = true) ∧ (¬ IsEvent i → t.evf = s.evf)

/-- An instruction writes a primitive or leaves EVF as its delivery left it (spec/60_exceptions.md R144). -/
theorem ExecNext.writesPrimitive_or_keepsDeliveredFlag {i : Instr} {s t : State} (h : ExecNext i s t)
    (hr : i ≠ .reset) : WritesPrimitive s t ∨ KeepsDeliveredFlag i s t := by
  cases h
  case reset => exact absurd rfl hr
  case init | initCw => exact .inr ⟨False.elim, fun _ => Bool.and_true s.evf⟩
  case answer hi =>
    rcases hi with ⟨rfl, -⟩ | ⟨rfl, -⟩ | ⟨rfl, -⟩ | ⟨k, rfl, -⟩ <;> exact .inr ⟨False.elim, fun _ => rfl⟩
  case txLong | txBusy | rxLong | rxBusy | rxNoTx => exact .inr ⟨False.elim, fun _ => rfl⟩
  case rstart | noinfo | unlisted => exact .inr ⟨fun _ => rfl, fun hno => absurd trivial hno⟩
  case txHeld | rxHeld | txStep | sendTransmit =>
    exact .inl ⟨[_, .cr cwXmit], List.append_assoc .., .cr cwXmit, by simp, rfl⟩
  all_goals exact .inl ⟨[_], rfl, _, List.mem_singleton_self _, rfl⟩

/-- With no primitive among its writes, an instruction leaves EVF as its delivery left it. -/
theorem ExecNext.keepsDeliveredFlag {i : Instr} {s t : State} (h : ExecNext i s t) (hs : s.Inv) (hr : i ≠ .reset)
    (hnone : ∀ w ∈ issued s i, isPrimitive w = false) : KeepsDeliveredFlag i s t := by
  refine (h.writesPrimitive_or_keepsDeliveredFlag hr).resolve_left ?_
  rintro ⟨ws, hws, w, hw, hprim⟩
  have : ws = issued s i := List.append_cancel_left (hws.symm.trans (h.trace_eq hs hr))
  simp [hnone w (this ▸ hw)] at hprim

/-- Where `RXIDX` is out of range both receive events fault (spec/60_exceptions.md R138). -/
theorem exec_receive_fault {s : State} (h : s.cfg.rxMaxLen ≤ s.rxidx.toNat) (sr dr : Byte) :
    exec (.evtRxdAck sr dr) s = .fault (.rxOverrun s.rxidx.toNat) ∧
      exec (.evtRxdNack sr dr) s = .fault (.rxOverrun s.rxidx.toNat) := by
  rcases (s.enterHandlerRx sr dr).rxStore_cases with ⟨hlt, -⟩ | ⟨-, hnone⟩
  · exact absurd hlt (Nat.not_lt_of_le h)
  · simp [exec, execEvtRxdAck, execEvtRxdNack, hnone]

/-- Settles O35: the writes, the primitives among them, EVF, and the store out of range. -/
theorem completeListOfPeripheralWrites : Obligations.CompleteListOfPeripheralWrites := by
  refine ⟨fun i s t hs hr hx => ?_, fun s sr dr h => exec_receive_fault h sr dr⟩
  have h := exec_next i s t hx
  exact ⟨h.trace_eq hs hr, atMostOnePrimitive_issued s i, h.keepsDeliveredFlag hs hr⟩

end Sys2Proof.Machine
end

section
/-! PROOFS of the statements about the host commands (spec/41_host_commands.md): the effect of each, read off
`ExecNext`, and that INIT comes first and only in `Ready`. -/

namespace Sys2Proof.Machine

open Sys2Proof.Certificates

/-! ### The two ways a frame is armed (spec/41_host_commands.md R88)

READ arms its address frame as TRANSMIT does its data, on the state with the receive counters written. -/

/-- From `Ready`: `TXIDX` is 0 and SEND_START is issued. -/
theorem State.armed_from_ready (s : State) (rs : Bool) (data : List Byte) :
    (((s.loadTx rs data).setMode .initializing).issueStart).answer 0x00#8 = { s with
      rs := rs, txbuf := s.txbuf.copyIn 0 data, txidx := 0#8, txlen := BitVec.ofNat 8 data.length,
      mode := .initializing, cr := cwStart, evf := false, trace := s.trace ++ [.cr cwStart],
      results := s.results ++ [0x00#8] } := by
  rw [State.issueStart, State.writeCr_of_evack _ rfl]
  rfl

/-- From `RepeatedStartSent`: the first byte is staged with SEND_TRANSMIT and `TXIDX` is 1. -/
theorem State.armed_from_held (s : State) (rs : Bool) (data : List Byte) (b : Byte) :
    ((((s.loadTx rs data).setMode .initializing).issueTransmit b).setTxIdx 1#8).answer 0x00#8 = { s with
      rs := rs, txbuf := s.txbuf.copyIn 0 data, txidx := 1#8, txlen := BitVec.ofNat 8 data.length,
      mode := .initializing, dr := b, cr := cwXmit, evf := false, trace := s.trace ++ [.dr b, .cr cwXmit],
      results := s.results ++ [0x00#8] } := by
  rw [State.issueTransmit_eq]
  rfl

/-! ### TRANSMIT and READ -/

/-- A copy to the start fixes the copied cells, and leaves the others. -/
theorem copiedIn_copyIn {m : Memory} (hm : m.wf) (data : List Byte) : CopiedIn m (m.copyIn 0 data) data := by
  refine ⟨Memory.wf_copyIn data m 0 hm, fun a => ?_⟩
  simpa using Memory.read_copyIn data m 0 a hm

theorem storedAt_write {m : Memory} (hm : m.wf) (k : Nat) (b : Byte) : StoredAt m (m.write k b) k b :=
  ⟨Memory.wf_write m k b hm, fun a => Memory.read_write m k b a hm⟩

/-- READ's frame is one byte, so its copy is one store (spec/30_encoding.md R62). -/
theorem storedAt_copyIn_addressFrame {m : Memory} (hm : m.wf) (addr : BitVec 7) :
    StoredAt m (m.copyIn 0 [addressFrame addr]) 0 ((addr.setWidth 8 <<< 1) ||| 0x01#8) :=
  addressFrame_eq addr ▸ storedAt_write hm 0 (addressFrame addr)

/-- Settles O15, by the clauses of `ExecNext` for TRANSMIT. -/
theorem transmitEffect : Obligations.TransmitEffect := by
  refine ⟨fun c rs data hlen => (FrameOf.transmit rs data hlen).decode_eq c, fun s rs data hwf h0 => ?_⟩
  refine ⟨fun hlong => ?tooLong, fun hfit hbusy => ?notReady, fun hfit hm => ?ready, fun hfit hm => ?held⟩
  case tooLong => exact exec_of_execNext _ _ _ (.txLong s rs data hlong)
  case notReady => exact exec_of_execNext _ _ _ (.txBusy s rs data hfit (s.not_ready_iff.mpr hbusy))
  case ready =>
    exact ⟨_, copiedIn_copyIn hwf data,
      (exec_of_execNext _ _ _ (.txReady s rs data hfit hm)).trans (congrArg _ (s.armed_from_ready rs data))⟩
  case held =>
    exact ⟨_, copiedIn_copyIn hwf data,
      (exec_of_execNext _ _ _ (.txHeld s rs data hfit hm h0)).trans (congrArg _ (s.armed_from_held rs data _))⟩

/-- Settles O16, by the clauses of `ExecNext` for READ; the byte staged is the one stored at cell 0. -/
theorem readEffect : Obligations.ReadEffect := by
  refine ⟨fun c rs addr n => (FrameOf.read rs addr n).decode_eq c, fun s rs addr n hwf h0 => ?_⟩
  refine ⟨fun hlong => ?tooLong, fun hfit hbusy => ?notReady, fun hfit hm => ?ready, fun hfit hm => ?held⟩
  case tooLong => exact exec_of_execNext _ _ _ (.rxLong s rs addr n hlong)
  case notReady => exact exec_of_execNext _ _ _ (.rxBusy s rs addr n hfit (s.not_ready_iff.mpr hbusy))
  case ready =>
    exact ⟨_, storedAt_copyIn_addressFrame hwf addr,
      (exec_of_execNext _ _ _ (.rxReady s rs addr n hfit hm h0)).trans
        (congrArg _ ((s.setRx 0#8 n).armed_from_ready rs [addressFrame addr]))⟩
  case held =>
    have hstored := storedAt_copyIn_addressFrame hwf addr
    have hx := exec_of_execNext _ _ _ (.rxHeld s rs addr n hfit hm h0)
    rw [hstored.2 0, if_pos rfl] at hx
    exact ⟨_, hstored, hx.trans (congrArg _ ((s.setRx 0#8 n).armed_from_held rs [addressFrame addr] _))⟩

/-! ### INIT and the commands that only answer -/

/-- INIT's two writes: BR, then a control word with `evack = 0`, so EVF stays (spec/30_encoding.md R71). -/
theorem State.writeBr_writeEnable (s : State) (v : Nat) :
    (s.writeBr v).writeEnable =
      { s with br := v, cr := cwEnable, trace := s.trace ++ [.br v, .cr cwEnable] } := by
  rw [State.writeEnable, State.writeCr_of_not_evack _ rfl]
  simp [State.writeBr]

/-- Settles O9, by INIT's two writes; its other updates are read off. -/
theorem initEffect : Obligations.InitEffect := by
  refine ⟨fun c => FrameOf.init.decode_eq c, fun s => ?_⟩
  rw [exec_of_execNext _ _ _ (.init s), State.writeBr_writeEnable]
  rfl

/-- ISREADY answers whether the block is ready, and writes nothing (spec/41_host_commands.md R87). -/
theorem exec_isready (s : State) : exec .isready s = .next (s.answer (if s.ready then 0x01#8 else 0x00#8)) := rfl

/-- Settles O10, by the two values of `ready`. -/
theorem isreadyEffect : Obligations.IsreadyEffect := by
  refine ⟨fun c => FrameOf.isready.decode_eq c, fun s => ⟨fun hready => ?_, fun hbusy => ?_⟩⟩
  · rw [exec_isready, s.ready_iff.mpr hready]
    rfl
  · rw [exec_isready, s.not_ready_iff.mpr hbusy]
    rfl

/-- Settles O11: both commands answer a member and end. -/
theorem readBackEffects : Obligations.ReadBackEffects :=
  ⟨fun c => ⟨FrameOf.geterr.decode_eq c, FrameOf.getrxlen.decode_eq c⟩, fun _ => ⟨rfl, rfl⟩⟩

/-- Settles O12, by the two cases of the index test. -/
theorem getrxbyteEffect : Obligations.GetrxbyteEffect := by
  refine ⟨fun c k => (FrameOf.getrxbyte k).decode_eq c, fun s k => ⟨fun hlt => ?_, fun hge => ?_⟩⟩
  · exact exec_of_execNext _ _ _ (.answer _ s _ (.inr (.inr (.inr ⟨k, rfl, hlt, rfl⟩))))
  · simp [exec, execGetrxbyte, State.readRx, Nat.not_lt_of_le hge]

/-! ### INIT comes first and only in `Ready` (spec/41_host_commands.md R86, spec/70_reset_and_hazards.md R157, R169) -/

/-- In `Ready` a step runs INIT to its end. -/
theorem step_init {s : State} {q : List Packet} (hc : s.context = none) (hin : s.inputs = .cmd [0x00#8] :: q)
    (hm : s.mode = .ready) : step s = endTransaction (exec .init (s.take (.cmd [0x00#8]) q)) :=
  step_of_launches hin hc rfl ⟨nofun, fun _ => hm, nofun⟩

/-- No instruction's meaning names the refusal of a command before INIT: only the launch premise does. -/
theorem exec_ne_beforeInit (i : Instr) (s : State) : exec i s ≠ .refused .beforeInit := by
  intro h
  rcases exec_refused i s _ h with ⟨_, _, -, hr⟩ | ⟨_, -, -, hr⟩ <;> cases hr

/-- The refusal of a command before INIT is given to no other packet. -/
theorem step_beforeInit {s : State} (h : step s = .refused .beforeInit) :
    ∃ f q, s.inputs = .cmd f :: q ∧ f ≠ [0x00#8] ∧ s.initialised = false := by
  rcases step_cases s with ⟨-, hs⟩ | ⟨p, q, r, -, hb, hs⟩ | ⟨p, q, r, -, -, -, hs⟩ | ⟨p, q, i, r, hin, -, hd, hl, hs⟩ |
      ⟨p, q, i, -, -, -, -, hs⟩
  · cases hs.symm.trans h
  · cases hs.symm.trans h
    rcases s.bars_cases p with ⟨-, hb'⟩ | ⟨-, -, hb'⟩ | ⟨-, -, hb'⟩ <;> cases hb'.symm.trans hb
  · cases hs.symm.trans h
  · cases hs.symm.trans h
    rcases s.launchBars_cases i with ⟨-, hl'⟩ | ⟨-, -, hl'⟩ | ⟨-, -, hl'⟩ | ⟨hfollows, hno, -⟩
    · cases hl'.symm.trans hl
    · cases hl'.symm.trans hl
    · cases hl'.symm.trans hl
    · obtain ⟨f, rfl, hf⟩ := followsInit_of_decode s.cfg p i hd hfollows
      exact ⟨f, q, hin, hf, hno⟩
  · exact absurd ((endTransaction_eq_refused _ _).mp (hs.symm.trans h)) (exec_ne_beforeInit i _)

/-- Nothing but INIT makes the record that INIT has run. -/
theorem ExecNext.not_initialised {i : Instr} {s t : State} (h : ExecNext i s t) (hi : i ≠ .init)
    (hs : s.initialised = false) : t.initialised = false := by
  by_cases hr : i = .reset
  · subst hr
    cases exec_of_execNext _ _ _ h
    rfl
  · exact (h.initialised_eq hi hr).trans hs

/-- Nothing but RESET undoes that record (spec/70_reset_and_hazards.md R157). -/
theorem ExecNext.initialised {i : Instr} {s t : State} (h : ExecNext i s t) (hr : i ≠ .reset)
    (hs : s.initialised = true) : t.initialised = true := by
  by_cases hi : i = .init
  · subst hi
    cases exec_of_execNext _ _ _ h
    rfl
  · exact (h.initialised_eq hi hr).trans hs

/-- A run that has started takes no RESET, so no step of it undoes the record. -/
theorem step_keeps_initialised {s t : State} (hstarted : s.started = true) (hs : s.initialised = true)
    (h : step s = .next t) : t.initialised = true := by
  rcases step_next s t h with ⟨-, rfl⟩ | ⟨p, q, i, u, -, -, -, ⟨hreset, -, -⟩, hx, rfl⟩
  · exact hs
  · refine (exec_next i _ u hx).initialised (fun hi => ?_) hs
    simp [hreset hi] at hstarted

/-- From `s` to `t` the packets taken are the oldest of `s`, and where INIT has not run in `s` the first command among
them is INIT. -/
def TakesInitFirst (s t : State) : Prop :=
  ∃ taken, s.inputs = taken ++ t.inputs ∧
    (s.initialised = false → ∀ p, (taken.filter isCommand).head? = some p → p = .cmd [0x00#8])

theorem TakesInitFirst.refl (s : State) : TakesInitFirst s s := ⟨[], rfl, fun _ _ hp => by cases hp⟩

/-- A command that is taken before INIT and answers a next state is INIT: the others follow INIT or are reserved. -/
theorem eq_init_of_next {s u v : State} {f : List Byte} {i : Instr} (hd : decode s.cfg (.cmd f) = .instr i)
    (hl : s.Launches i) (hs : s.initialised = false) (hx : exec i u = .next v) : i = .init := by
  by_contra hi
  have hfollows : FollowsInit i := followsInit_of_decode_cmd hd hi fun op operands hres => by
    subst hres
    cases hx
  obtain ⟨-, -, hinit⟩ := hl
  simp [hinit hfollows] at hs

/-- A step before a run: INIT's own, or one that takes no command and leaves the block before INIT. -/
theorem TakesInitFirst.head {s u t : State} (h : step s = .next u) (hut : TakesInitFirst u t) : TakesInitFirst s t := by
  obtain ⟨taken, hu, hfirst⟩ := hut
  rcases step_next s u h with ⟨-, rfl⟩ | ⟨p, q, i, v, hin, -, hd, hl, hx, rfl⟩
  · exact ⟨taken, hu, hfirst⟩
  · have hv := exec_next i _ v hx
    have hq : q = taken ++ t.inputs := hv.inputs_eq.symm.trans hu
    refine ⟨p :: taken, by rw [hin, hq, List.cons_append], fun hs => ?_⟩
    cases hp : isCommand p with
    | true =>
      cases p with
      | cmd f =>
        obtain rfl := eq_init_of_next hd hl hs hx
        rintro p' hp'
        cases hp'
        exact (decode_init_iff _ _).mp hd
      | evt | prim | reset => cases hp
    | false =>
      have hi : i ≠ .init := by
        rintro rfl
        obtain rfl := (decode_init_iff _ _).mp hd
        cases hp
      rw [List.filter_cons_of_neg (by simp [hp])]
      exact hfirst (hv.not_initialised hi hs)

/-- Settles O53: the step on INIT's frame, the frames that are refused, and the induction over a run. -/
theorem initFirstAndOnlyWhenIdle : Obligations.InitFirstAndOnlyWhenIdle := by
  refine ⟨fun s q hc hin => ⟨fun hm => ?notIdle, fun hm => ?idle⟩,
    fun s f q hc hin => ⟨step_cmd_refused_iff hc hin, ?named⟩,
    fun _ _ => step_keeps_initialised, fun _ => rfl, fun k s t hs h => ?run⟩
  case notIdle => exact step_of_launchBars hin hc rfl (State.launchBars_init hm)
  case idle => exact ⟨_, step_init hc hin hm, rfl, rfl, rfl, rfl, rfl, rfl, rfl, rfl⟩
  case named =>
    intro h
    obtain ⟨g, _, hin', hg, hno⟩ := step_beforeInit h
    cases hin.symm.trans hin'
    exact ⟨hg, hno⟩
  case run =>
    obtain ⟨taken, hin, hfirst⟩ :=
      run_next_induction (M := core) TakesInitFirst .refl (fun _ _ _ => TakesInitFirst.head) k s t h
    exact ⟨taken, hin, hfirst hs⟩

end Sys2Proof.Machine
end

section
/-! PROOFS of the statements about the events (spec/42_event_fsm.md): the rule a status selects, the effect of each
rule, what the events write to `ERR` and `MODE`, and a read that completes. -/

namespace Sys2Proof.Machine

open Sys2Proof.Certificates

/-! ### The rule a status selects (spec/42_event_fsm.md R95) -/

/-- Settles O4: a named status selects its own rule, any other value the unlisted one. -/
theorem maskedStatusSelectsTheRule : Obligations.MaskedStatusSelectsTheRule := by
  intro c sr dr hc
  exact ⟨fun h => decode_evt_of_carries hc .buserr h dr,
    fun h => decode_evt_of_carries hc .start h dr,
    fun h => decode_evt_of_carries hc .rstart h dr,
    fun h => decode_evt_of_carries hc .slawAck h dr,
    fun h => decode_evt_of_carries hc .slawNack h dr,
    fun h => decode_evt_of_carries hc .txdAck h dr,
    fun h => decode_evt_of_carries hc .txdNack h dr,
    fun h => decode_evt_of_carries hc .arbLost h dr,
    fun h => decode_evt_of_carries hc .slarAck h dr,
    fun h => decode_evt_of_carries hc .slarNack h dr,
    fun h => decode_evt_of_carries hc .rxdAck h dr,
    fun h => decode_evt_of_carries hc .rxdNack h dr,
    fun h => decode_evt_of_carries hc .noinfo h dr,
    fun h => decode_evt_of_unlisted h dr⟩

/-! ### The effect of each rule: the clauses of `ExecNext`, the control word written out -/

/-- An instruction that ends with a primitive's control word clears EVF (spec/10_state.md R33). -/
theorem ExecNext.exec_eq_of_writeCr {i : Instr} {s u : State} {w : ControlWord} (h : ExecNext i s (u.writeCr w))
    (hw : w.evack = true) :
    exec i s = .next { u with cr := w, evf := false, trace := u.trace ++ [.cr w] } :=
  (exec_of_execNext i s _ h).trans (congrArg _ (u.writeCr_of_evack hw))

/-- `i` is an event of TXSTEP's row, which from mode `old` enters mode `m` (spec/42_event_fsm.md R101 to R103). -/
abbrev TxRow (i : Instr) (sr : Byte) (old m : Mode) : Prop :=
  (i = .evtStart sr ∧ m = old) ∨ (i = .evtSlawAck sr ∧ m = .masterTransmitter) ∨ (i = .evtTxdAck sr ∧ m = old)

/-- Staging, and the end of the transfer for each value of `RS` (spec/42_event_fsm.md R97). -/
theorem exec_txRule {i : Instr} {s : State} {sr : Byte} {m : Mode} (hi : TxRow i sr s.mode m) :
    TxRule (exec i s) s sr m := by
  refine ⟨fun hpend hcap => ?stage, fun hend hrs => ?start, fun hend hrs => ?stop⟩
  case stage =>
    rw [exec_of_execNext _ _ _ (.txStep i s sr m hi hpend (by omega)), State.issueTransmit_eq]
    rfl
  case start => exact (ExecNext.txStart i s sr m hi hend hrs).exec_eq_of_writeCr rfl
  case stop =>
    have hrow := hi.imp And.left (Or.imp And.left And.left)
    exact (ExecNext.txStop i s sr hrow hend hrs).exec_eq_of_writeCr rfl

/-- Settles O17: the three events of TXSTEP's row. -/
theorem transmitEventEffects : Obligations.TransmitEventEffects := fun _ _ =>
  ⟨exec_txRule (by simp [TxRow]), exec_txRule (by simp [TxRow]), exec_txRule (by simp [TxRow])⟩

/-- Settles O18; on integers `RXIDX < RXLEN - 1` says `RXIDX + 1 < RXLEN`. -/
theorem slarAckEffect : Obligations.SlarAckEffect := by
  refine fun s sr => ⟨fun hmore => ?_, fun hlast => ?_⟩
  · exact (ExecNext.slarAck s sr (by omega)).exec_eq_of_writeCr rfl
  · exact (ExecNext.slarNack s sr (by omega)).exec_eq_of_writeCr rfl

/-- An index below a capacity that fits in a byte does not wrap when it is incremented. -/
theorem toNat_succ_of_lt {b : Byte} {n : Nat} (hb : b.toNat < n) (hn : n ≤ 255) : (b + 1#8).toNat = b.toNat + 1 := by
  simp only [BitVec.toNat_add, BitVec.toNat_ofNat]
  omega

/-- Settles O19: the store, and the answer on the incremented `RXIDX`. -/
theorem rxdAckEffect : Obligations.RxdAckEffect := by
  intro s sr dr hwf hcap hlt
  have hsucc := toNat_succ_of_lt hlt hcap
  refine ⟨_, storedAt_write hwf s.rxidx.toNat dr, fun hmore => ?_, fun hlast => ?_⟩
  · exact (ExecNext.rxAck s sr dr hlt (by omega)).exec_eq_of_writeCr rfl
  · exact (ExecNext.rxNack s sr dr hlt (by omega)).exec_eq_of_writeCr rfl

/-- Settles O20: the store, and the end of the transfer for each value of `RS`. -/
theorem rxdNackEffect : Obligations.RxdNackEffect := by
  intro s sr dr hwf hlt
  refine ⟨_, storedAt_write hwf s.rxidx.toNat dr, fun hrs => ?_, fun hrs => ?_⟩
  · exact (ExecNext.rxStart s sr dr hlt hrs).exec_eq_of_writeCr rfl
  · exact (ExecNext.rxStop s sr dr hlt hrs).exec_eq_of_writeCr rfl

/-- FINISH with the masked status, for each of the four failures (spec/42_event_fsm.md R107 to R110). -/
theorem exec_failRule {i : Instr} {s : State} {sr : Byte}
    (hi : i = .evtSlarNack sr ∨ i = .evtSlawNack sr ∨ i = .evtTxdNack sr ∨ i = .evtArbLost sr) :
    FailRule (exec i s) s sr :=
  ⟨fun hrs => (ExecNext.failStart i s sr hi hrs).exec_eq_of_writeCr rfl,
    fun hrs => (ExecNext.failStop i s sr hi hrs).exec_eq_of_writeCr rfl⟩

/-- Settles O21: the four events that share FINISH. -/
theorem failureEventEffects : Obligations.FailureEventEffects := fun _ _ =>
  ⟨exec_failRule (by simp), exec_failRule (by simp), exec_failRule (by simp), exec_failRule (by simp)⟩

/-- Settles O22. -/
theorem rstartEffect : Obligations.RstartEffect := fun s sr => exec_of_execNext _ _ _ (.rstart s sr)

/-- Settles O23. -/
theorem buserrEffect : Obligations.BuserrEffect := fun s sr => (ExecNext.buserr s sr).exec_eq_of_writeCr rfl

/-- Settles O24. -/
theorem noActionEventEffects : Obligations.NoActionEventEffects := fun s sr =>
  ⟨exec_of_execNext _ _ _ (.noinfo s sr), exec_of_execNext _ _ _ (.unlisted s sr)⟩

/-! ### Every write of `ERR` (spec/42_event_fsm.md R118) -/

theorem ExecNext.err_eq {i : Instr} {s t : State} (h : ExecNext i s t) : t.err = errAfter s i := by
  cases h
  case txStep hpend _ hi => rcases hi with ⟨rfl, -⟩ | ⟨rfl, -⟩ | ⟨rfl, -⟩ <;> exact (if_pos hpend).symm
  case txStart hend _ hi =>
    rcases hi with ⟨rfl, -⟩ | ⟨rfl, -⟩ | ⟨rfl, -⟩ <;> exact (if_neg (Nat.not_lt_of_le hend)).symm
  case txStop hi hend _ => rcases hi with rfl | rfl | rfl <;> exact (if_neg (Nat.not_lt_of_le hend)).symm
  case failStart hi _ | failStop hi _ => rcases hi with rfl | rfl | rfl | rfl <;> rfl
  case answer hi => rcases hi with ⟨rfl, -⟩ | ⟨rfl, -⟩ | ⟨rfl, -⟩ | ⟨k, rfl, -⟩ <;> rfl
  all_goals rfl

/-- Settles O30, by the case split of `ExecNext.err_eq`. -/
theorem completeListOfErrWrites : Obligations.CompleteListOfErrWrites := fun i s t hx => (exec_next i s t hx).err_eq

/-! ### `MODE` (spec/42_event_fsm.md R115, R116) -/

/-- R115's table. -/
theorem ExecNext.mode_eq_of_isEvent {i : Instr} {s t : State} (h : ExecNext i s t) (he : IsEvent i) :
    t.mode = modeAfterEvent s i := by
  cases h
  case txStep hpend _ hi => rcases hi with ⟨rfl, rfl⟩ | ⟨rfl, rfl⟩ | ⟨rfl, rfl⟩ <;> simp [modeAfterEvent, hpend]
  case txStart hend hrs hi =>
    rcases hi with ⟨rfl, rfl⟩ | ⟨rfl, rfl⟩ | ⟨rfl, rfl⟩ <;>
      simp [modeAfterEvent, modeAtEnd, Nat.not_lt_of_le hend, hrs]
  case txStop hi hend hrs =>
    rcases hi with rfl | rfl | rfl <;> simp [modeAfterEvent, modeAtEnd, Nat.not_lt_of_le hend, hrs]
  case rxStart hrs | rxStop hrs => simp [modeAfterEvent, modeAtEnd, hrs]
  case failStart hi hrs | failStop hi hrs =>
    rcases hi with rfl | rfl | rfl | rfl <;> simp [modeAfterEvent, modeAtEnd, hrs]
  case slarAck | slarNack | rxAck | rxNack | rstart | buserr | noinfo | unlisted => rfl
  case answer hi => rcases hi with ⟨rfl, -⟩ | ⟨rfl, -⟩ | ⟨rfl, -⟩ | ⟨k, rfl, -⟩ <;> exact he.elim
  all_goals exact he.elim

/-- Settles O31: R115's table, and its row for a receive store out of range. -/
theorem nextModeOfEveryEvent : Obligations.NextModeOfEveryEvent := by
  refine fun i s he => ⟨fun t hx => (exec_next i s t hx).mode_eq_of_isEvent he, fun sr dr hi hge => ?_⟩
  obtain ⟨hack, hnack⟩ := exec_receive_fault hge sr dr
  rcases hi with rfl | rfl
  · exact hack
  · exact hnack

/-- Who may write each mode, going from `s` to `t` by `i` (spec/42_event_fsm.md R116). -/
def MayEnter (i : Instr) (s t : State) : Mode → Prop
  | .initializing => (∃ rs data, i = .transmit rs data) ∨ ∃ rs addr n, i = .read rs addr n
  | .masterTransmitter => ∃ sr, i = .evtSlawAck sr
  | .masterReceiver => ∃ sr, i = .evtSlarAck sr
  | .repeatedStartSent => ∃ sr, i = .evtRstart sr
  | .ready => i = .init ∨ i = .reset ∨ (IsEvent i ∧ t.cr = cwStop ∧ ((∃ sr, i = .evtBuserr sr) ∨ s.rs = false))

theorem ExecNext.mode_eq_or_mayEnter {i : Instr} {s t : State} (h : ExecNext i s t) :
    t.mode = s.mode ∨ MayEnter i s t t.mode := by
  cases h
  case init => exact .inr (.inl rfl)
  case reset => exact .inr (.inr (.inl rfl))
  case txReady rs d _ _ | txHeld rs d _ _ _ => exact .inr (.inl ⟨rs, d, rfl⟩)
  case rxReady rs a n _ _ _ | rxHeld rs a n _ _ _ => exact .inr (.inr ⟨rs, a, n, rfl⟩)
  case txStep sr m _ _ hi | txStart sr m _ _ hi =>
    rcases hi with ⟨-, rfl⟩ | ⟨rfl, rfl⟩ | ⟨-, rfl⟩
    · exact .inl rfl
    · exact .inr ⟨sr, rfl⟩
    · exact .inl rfl
  case txStop hi _ hrs =>
    have he : IsEvent i := by rcases hi with rfl | rfl | rfl <;> trivial
    exact .inr (.inr (.inr ⟨he, rfl, .inr hrs⟩))
  case failStop hi hrs =>
    have he : IsEvent i := by rcases hi with rfl | rfl | rfl | rfl <;> trivial
    exact .inr (.inr (.inr ⟨he, rfl, .inr hrs⟩))
  case rxStop hrs => exact .inr (.inr (.inr ⟨trivial, rfl, .inr hrs⟩))
  case buserr sr => exact .inr (.inr (.inr ⟨trivial, rfl, .inl ⟨sr, rfl⟩⟩))
  case slarAck sr _ | slarNack sr _ | rstart sr => exact .inr ⟨sr, rfl⟩
  all_goals exact .inl rfl

/-- Settles O32: an instruction that changes `MODE` may enter the mode it enters. -/
theorem onlyWritersOfEachMode : Obligations.OnlyWritersOfEachMode := by
  intro i s t hx hne
  have hmay : ∀ m, t.mode = m → MayEnter i s t m := by
    rintro _ rfl
    exact (exec_next i s t hx).mode_eq_or_mayEnter.resolve_left hne
  exact ⟨hmay .initializing, hmay .masterTransmitter, hmay .masterReceiver, hmay .repeatedStartSent, hmay .ready⟩

/-! ### `MODE` is no guard of an event (spec/42_event_fsm.md R96) -/

/-- Each event of TXSTEP's row enters some mode from every mode. -/
theorem TxRow.from_any_mode {i : Instr} {sr : Byte} {old m' : Mode} (hi : TxRow i sr old m') (m : Mode) :
    ∃ k, TxRow i sr m k := by
  rcases hi with ⟨rfl, -⟩ | ⟨rfl, -⟩ | ⟨rfl, -⟩
  · exact ⟨m, by simp [TxRow]⟩
  · exact ⟨.masterTransmitter, by simp [TxRow]⟩
  · exact ⟨m, by simp [TxRow]⟩

/-- No event's clause of `ExecNext` has a condition on `MODE`, so the same clause gives the next state from another
mode, and the mode is written nowhere else. -/
theorem ExecNext.from_any_mode {i : Instr} {s t : State} (h : ExecNext i s t) (he : IsEvent i) (m : Mode) :
    ∃ u, ExecNext i (s.setMode m) u ∧ u.setMode t.mode = t := by
  cases h
  case txStep sr _ hpend hcap hi =>
    obtain ⟨k, hk⟩ := TxRow.from_any_mode hi m
    exact ⟨_, .txStep i _ sr k hk hpend hcap, rfl⟩
  case txStart sr _ hend hrs hi =>
    obtain ⟨k, hk⟩ := TxRow.from_any_mode hi m
    exact ⟨_, .txStart i _ sr k hk hend hrs, rfl⟩
  case txStop sr hi hend hrs => exact ⟨_, .txStop i _ sr hi hend hrs, rfl⟩
  case slarAck sr hmore => exact ⟨_, .slarAck _ sr hmore, rfl⟩
  case slarNack sr hlast => exact ⟨_, .slarNack _ sr hlast, rfl⟩
  case rxAck sr dr hlt hmore => exact ⟨_, .rxAck _ sr dr hlt hmore, rfl⟩
  case rxNack sr dr hlt hlast => exact ⟨_, .rxNack _ sr dr hlt hlast, rfl⟩
  case rxStart sr dr hlt hrs => exact ⟨_, .rxStart _ sr dr hlt hrs, rfl⟩
  case rxStop sr dr hlt hrs => exact ⟨_, .rxStop _ sr dr hlt hrs, rfl⟩
  case failStart sr hi hrs => exact ⟨_, .failStart i _ sr hi hrs, rfl⟩
  case failStop sr hi hrs => exact ⟨_, .failStop i _ sr hi hrs, rfl⟩
  case rstart sr => exact ⟨_, .rstart _ sr, rfl⟩
  case buserr sr => exact ⟨_, .buserr _ sr, rfl⟩
  case noinfo sr => exact ⟨_, .noinfo _ sr, rfl⟩
  case unlisted sr => exact ⟨_, .unlisted _ sr, rfl⟩
  case answer hi => rcases hi with ⟨rfl, -⟩ | ⟨rfl, -⟩ | ⟨rfl, -⟩ | ⟨k, rfl, -⟩ <;> exact he.elim
  all_goals exact he.elim

/-- Settles O42: the next state from the other mode is the one the same clause of `ExecNext` gives. -/
theorem modeIsNoGuardOfEvents : Obligations.ModeIsNoGuardOfEvents := by
  intro i s t m he hx
  obtain ⟨u, hu, hsame⟩ := (exec_next i s t hx).from_any_mode he m
  exact ⟨u, exec_of_execNext _ _ _ hu, hsame⟩

/-! ### Steps and runs between transactions -/

/-- The block is between transactions and `q` is to be taken. -/
def State.Waits (s : State) (q : List Packet) : Prop := s.context = none ∧ s.inputs = q

/-- A packet that decodes to `i`, which the launch premise lets run, is taken and run to its end. -/
theorem step_of_waits {s t : State} {p : Packet} {q : List Packet} {i : Instr} (hw : s.Waits (p :: q))
    (hp : s.Takes p) (hd : decode s.cfg p = .instr i) (hl : s.Launches i)
    (hx : exec i (s.take p q) = .next t) : step s = .next t.leaveContext ∧ t.leaveContext.Waits q := by
  have hstep := step_of_launches hw.2 hp hd hl
  rw [hx] at hstep
  exact ⟨hstep, rfl, (exec_next i _ t hx).inputs_eq⟩

/-- A named status' own code carries it: no code has a bit outside the mask (spec/30_encoding.md R65). -/
theorem carries_code {c : Config} (hc : c.Wf) (st : Status) : carries c st (c.statusEnc.code st) := by
  obtain ⟨-, -, -, hcodes, -, -⟩ := hc
  exact (hcodes st st.mem_all).1

/-- An event with a named status' code runs the rule of its status. -/
theorem step_eventOf {s t : State} {st : Status} {dr : Byte} {q : List Packet} (hc : s.cfg.Wf)
    (hw : s.Waits (eventOf s.cfg st dr :: q))
    (hx : exec (eventInstr (some st) (s.cfg.statusEnc.code st) dr) (s.take (eventOf s.cfg st dr) q) = .next t) :
    step s = .next t.leaveContext ∧ t.leaveContext.Waits q := by
  have hd : decode s.cfg (eventOf s.cfg st dr) = .instr (eventInstr (some st) (s.cfg.statusEnc.code st) dr) :=
    decode_evt_of_carries hc st (carries_code hc st) dr
  exact step_of_waits hw hw.1 hd (s.launches_of_decode s.cfg _ _ hd nofun nofun) hx

/-- A step before a run. -/
theorem run_succ_of_step {M : Host.Core} {s u : M.State} (h : M.step s = .next u) (k : Nat) :
    M.run (k + 1) s = M.run k u := by
  rw [Host.Core.run, h]

/-- A run before a run. -/
theorem run_add_of_next {M : Host.Core} (j : Nat) {u : M.State} :
    ∀ (k : Nat) {s : M.State}, M.run k s = .next u → M.run (k + j) s = M.run j u
  | 0, s, h => by
    cases h
    rw [Nat.zero_add]
  | k + 1, s, h => by
    obtain ⟨v, hs, hrun⟩ := run_succ_next h
    rw [Nat.succ_add, run_succ_of_step hs, run_add_of_next j k hrun]

/-! ### A read under way: one rule per operation of its events (spec/42_event_fsm.md R98 to R100) -/

/-- The first cells of a buffer hold `stored`, in order. -/
def Memory.Holds (m : Memory) (stored : List Byte) : Prop :=
  m.wf ∧ ∀ k < stored.length, m.read k = stored.getD k 0#8

/-- Storing the next byte after the ones held. -/
theorem Memory.Holds.write {m : Memory} {stored : List Byte} (h : m.Holds stored) (b : Byte) :
    (m.write stored.length b).Holds (stored ++ [b]) := by
  obtain ⟨hwf, hread⟩ := h
  refine ⟨Memory.wf_write m _ b hwf, fun k hk => ?_⟩
  rw [Memory.read_write m _ b k hwf]
  split
  · next heq => simp [heq]
  · next hne =>
    have hlt : k < stored.length := by
      rw [List.length_append, List.length_singleton] at hk
      omega
    rw [hread k hlt, List.getD_append _ _ _ _ hlt]

/-- A read of `n` bytes is under way, with the parameters `c` and the given `RS`: `stored` has been received and `tr`
written to the peripheral. -/
def Receiving (c : Config) (rs : Bool) (n : Nat) (stored : List Byte) (tr : List PeriphWrite) (s : State) : Prop :=
  s.cfg = c ∧ s.rs = rs ∧ s.rxlen.toNat = n ∧ s.rxidx.toNat = stored.length ∧ s.rxbuf.Holds stored ∧ s.trace = tr

/-- RXANSWER's control word with `m` bytes to come after the next one: SEND_ACK but for the last byte. -/
def answerWord (m : Nat) : ControlWord := if m = 0 then cwNack else cwAck

section
variable {c : Config} {rs : Bool} {n : Nat} {stored : List Byte} {tr : List PeriphWrite} {s : State}

/-! Updates that write none of the fields it speaks of. -/

theorem Receiving.take (h : Receiving c rs n stored tr s) (p : Packet) (q : List Packet) :
    Receiving c rs n stored tr (s.take p q) := h

theorem Receiving.leaveContext (h : Receiving c rs n stored tr s) : Receiving c rs n stored tr s.leaveContext := h

theorem Receiving.enterHandler (h : Receiving c rs n stored tr s) (sr : Byte) :
    Receiving c rs n stored tr (s.enterHandler sr) := h

theorem Receiving.enterHandlerRx (h : Receiving c rs n stored tr s) (sr dr : Byte) :
    Receiving c rs n stored tr (s.enterHandlerRx sr dr) := h

theorem Receiving.setMode (h : Receiving c rs n stored tr s) (m : Mode) : Receiving c rs n stored tr (s.setMode m) := h

theorem Receiving.setErr (h : Receiving c rs n stored tr s) (e : Byte) : Receiving c rs n stored tr (s.setErr e) := h

theorem Receiving.setTxIdx (h : Receiving c rs n stored tr s) (v : Byte) :
    Receiving c rs n stored tr (s.setTxIdx v) := h

/-! Updates that do. -/

theorem Receiving.putRx (h : Receiving c rs n stored tr s) (hc : c.Wf) (hlt : stored.length < c.rxMaxLen) :
    Receiving c rs n (stored ++ [s.dr]) tr s.putRx := by
  have ⟨_, ⟨_, hcap⟩, _⟩ := hc
  obtain ⟨hcfg, hrs, hlen, hidx, hbuf, htr⟩ := h
  refine ⟨hcfg, hrs, hlen, ?_, ?_, htr⟩
  · rw [State.putRx_rxidx, toNat_succ_of_lt (hidx ▸ hlt) hcap, hidx, List.length_append, List.length_singleton]
  · rw [State.putRx_rxbuf, hidx]
    exact hbuf.write s.dr

theorem Receiving.writeCr (h : Receiving c rs n stored tr s) (w : ControlWord) :
    Receiving c rs n stored (tr ++ [.cr w]) (s.writeCr w) := by
  obtain ⟨hcfg, hrs, hlen, hidx, hbuf, htr⟩ := h
  exact ⟨hcfg, hrs, hlen, hidx, hbuf, by rw [State.writeCr_trace, htr]⟩

theorem Receiving.issueTransmit (h : Receiving c rs n stored tr s) (b : Byte) :
    Receiving c rs n stored (tr ++ [.dr b, .cr cwXmit]) (s.issueTransmit b) := by
  obtain ⟨hcfg, hrs, hlen, hidx, hbuf, htr⟩ := h
  exact ⟨hcfg, hrs, hlen, hidx, hbuf, by rw [State.issueTransmit_eq, htr]⟩

theorem Receiving.rxAnswer (h : Receiving c rs n stored tr s) {m : Nat} (hn : n = stored.length + m + 1) :
    Receiving c rs n stored (tr ++ [.cr (answerWord m)]) s.rxAnswer := by
  have ⟨_, _, hlen, hidx, _, _⟩ := h
  rcases s.rxAnswer_cases with ⟨hmore, hans⟩ | ⟨hlast, hans⟩
  · rw [hans, answerWord, if_neg (by omega)]
    exact h.writeCr cwAck
  · rw [hans, answerWord, if_pos (by omega)]
    exact h.writeCr cwNack

theorem Receiving.finish (h : Receiving c rs n stored tr s) (e : Byte) :
    Receiving c rs n stored (tr ++ [.cr (if rs then cwStart else cwStop)]) (s.finish e) := by
  have ⟨_, hrs, _⟩ := h
  rcases s.finish_cases e with ⟨hs, hfin⟩ | ⟨hs, hfin⟩
  · rw [hfin, if_pos (hrs ▸ hs)]
    exact (h.setErr e).writeCr cwStart
  · rw [hfin, if_neg (by simp [← hrs, hs])]
    exact ((h.setMode .ready).setErr e).writeCr cwStop

end

theorem State.finish_err (s : State) (e : Byte) : (s.finish e).err = e := by
  rcases s.finish_cases e with ⟨-, h⟩ | ⟨-, h⟩ <;> rw [h] <;> rfl

theorem State.finish_mode (s : State) (e : Byte) : (s.finish e).mode = modeAtEnd s s.mode := by
  rcases s.finish_cases e with ⟨hs, h⟩ | ⟨hs, h⟩ <;> rw [h, modeAtEnd, hs] <;> rfl

/-! ### The events of a read, as steps (spec/42_event_fsm.md R101, R104 to R106, R111) -/

/-- A received byte is stored where there is room, and RXANSWER or FINISH follows. -/
theorem exec_receive_of_lt {s : State} (h : s.rxidx.toNat < s.cfg.rxMaxLen) (sr dr : Byte) :
    exec (.evtRxdAck sr dr) s = .next (s.enterHandlerRx sr dr).putRx.rxAnswer ∧
      exec (.evtRxdNack sr dr) s = .next ((s.enterHandlerRx sr dr).putRx.finish 0xFF#8) := by
  rcases (s.enterHandlerRx sr dr).rxStore_cases with ⟨-, hsome⟩ | ⟨hge, -⟩
  · simp [exec, execEvtRxdAck, execEvtRxdNack, hsome, State.leaveHandler]
  · exact absurd h (Nat.not_lt_of_le hge)

section
variable {c : Config} {rs : Bool} {n : Nat} {stored : List Byte} {tr : List PeriphWrite} {q : List Packet} {s : State}

/-- S_SLAR_ACK, with `m` bytes to come after the first one. -/
theorem Receiving.step_slarAck (h : Receiving c rs n [] tr s) (hc : c.Wf) {m : Nat} (hn : n = m + 1)
    (hw : s.Waits (eventOf c .slarAck 0#8 :: q)) :
    ∃ t, step s = .next t ∧ t.Waits q ∧ Receiving c rs n [] (tr ++ [.cr (answerWord m)]) t := by
  have ⟨hcfg, _⟩ := h
  subst hcfg
  obtain ⟨hstep, hwait⟩ := step_eventOf (st := .slarAck) hc hw rfl
  exact ⟨_, hstep, hwait,
    ((((h.take _ q).enterHandler _).setMode .masterReceiver).rxAnswer (by simpa using hn)).leaveContext⟩

/-- S_RXD_ACK, with `m` bytes to come after the next one. -/
theorem Receiving.step_rxdAck (h : Receiving c rs n stored tr s) (hc : c.Wf) (hroom : n ≤ c.rxMaxLen) {b : Byte}
    {m : Nat} (hn : n = stored.length + m + 2) (hw : s.Waits (eventOf c .rxdAck b :: q)) :
    ∃ t, step s = .next t ∧ t.Waits q ∧ Receiving c rs n (stored ++ [b]) (tr ++ [.cr (answerWord m)]) t := by
  have ⟨hcfg, _, _, hidx, _, _⟩ := h
  subst hcfg
  have hlt : stored.length < s.cfg.rxMaxLen := by omega
  obtain ⟨hack, -⟩ := exec_receive_of_lt (s := s.take (eventOf s.cfg .rxdAck b) q) (hidx ▸ hlt)
    (s.cfg.statusEnc.code .rxdAck) b
  obtain ⟨hstep, hwait⟩ := step_eventOf (st := .rxdAck) hc hw hack
  have hstored := ((h.take (eventOf s.cfg .rxdAck b) q).enterHandlerRx (s.cfg.statusEnc.code .rxdAck) b).putRx hc hlt
  have hlen : n = (stored ++ [b]).length + m + 1 := by
    rw [List.length_append, List.length_singleton]
    omega
  exact ⟨_, hstep, hwait, (hstored.rxAnswer hlen).leaveContext⟩

/-- S_RXD_NACK: the last byte, and the end of the transfer. -/
theorem Receiving.step_rxdNack (h : Receiving c rs n stored tr s) (hc : c.Wf) (hroom : n ≤ c.rxMaxLen) {b : Byte}
    (hn : n = stored.length + 1) (hw : s.Waits (eventOf c .rxdNack b :: q)) :
    ∃ t, step s = .next t ∧ t.Waits q ∧
      Receiving c rs n (stored ++ [b]) (tr ++ [.cr (if rs then cwStart else cwStop)]) t ∧
      t.err = 0xFF#8 ∧ (rs = false → t.mode = .ready) := by
  have ⟨hcfg, hrs, _, hidx, _, _⟩ := h
  subst hcfg
  have hlt : stored.length < s.cfg.rxMaxLen := by omega
  obtain ⟨-, hnack⟩ := exec_receive_of_lt (s := s.take (eventOf s.cfg .rxdNack b) q) (hidx ▸ hlt)
    (s.cfg.statusEnc.code .rxdNack) b
  obtain ⟨hstep, hwait⟩ := step_eventOf (st := .rxdNack) hc hw hnack
  have hstored := ((h.take (eventOf s.cfg .rxdNack b) q).enterHandlerRx (s.cfg.statusEnc.code .rxdNack) b).putRx hc hlt
  refine ⟨_, hstep, hwait, (hstored.finish 0xFF#8).leaveContext, State.finish_err _ _, fun hno => ?_⟩
  rw [State.leaveContext_mode, State.finish_mode]
  exact if_neg (by simp [hrs, hno])

/-- S_RSTART: only `MODE` is written. -/
theorem Receiving.step_rstart (h : Receiving c rs n stored tr s) (hc : c.Wf)
    (hw : s.Waits (eventOf c .rstart 0#8 :: q)) :
    ∃ t, step s = .next t ∧ t.Waits q ∧ Receiving c rs n stored tr t ∧ t.err = s.err ∧
      t.mode = .repeatedStartSent := by
  have ⟨hcfg, _⟩ := h
  subst hcfg
  obtain ⟨hstep, hwait⟩ := step_eventOf (st := .rstart) hc hw rfl
  exact ⟨_, hstep, hwait, (((h.take _ q).enterHandler _).setMode .repeatedStartSent).leaveContext, rfl, rfl⟩

/-- The bytes before the last one, each acknowledged; the last of these answers with SEND_NACK. -/
theorem Receiving.run_body (hc : c.Wf) (hroom : n ≤ c.rxMaxLen) :
    ∀ (body stored : List Byte) (tr : List PeriphWrite) (s : State),
      Receiving c rs n stored (tr ++ [.cr (answerWord body.length)]) s → n = stored.length + body.length + 1 →
      s.Waits (body.map (eventOf c .rxdAck) ++ q) →
      ∃ t, core.run body.length s = .next t ∧ t.Waits q ∧
        Receiving c rs n (stored ++ body) (tr ++ List.replicate body.length (.cr cwAck) ++ [.cr cwNack]) t
  | [], stored, tr, s, h, _, hw => ⟨s, rfl, hw, by simpa [answerWord] using h⟩
  | b :: body, stored, tr, s, h, hn, hw => by
    rw [List.length_cons] at hn
    obtain ⟨u, hstep, hwu, hu⟩ := h.step_rxdAck hc hroom (m := body.length) (by omega) hw
    obtain ⟨t, hrun, hwt, ht⟩ := Receiving.run_body hc hroom body _ _ u hu (by simp; omega) hwu
    refine ⟨t, (run_succ_of_step (M := core) hstep _).trans hrun, hwt, ?_⟩
    simpa [answerWord, List.replicate_succ] using ht

/-- The last byte and, with `RS = 1`, the repeated start. -/
theorem Receiving.run_end (h : Receiving c rs n stored tr s) (hc : c.Wf) (hroom : n ≤ c.rxMaxLen) {b : Byte}
    (hn : n = stored.length + 1)
    (hw : s.Waits (eventOf c .rxdNack b :: if rs then [eventOf c .rstart 0#8] else [])) :
    ∃ t, core.run (if rs then 2 else 1) s = .next t ∧ t.Waits [] ∧
      Receiving c rs n (stored ++ [b]) (tr ++ [.cr (if rs then cwStart else cwStop)]) t ∧
      t.err = 0xFF#8 ∧ t.mode = if rs then .repeatedStartSent else .ready := by
  obtain ⟨u, hstep, hwu, hu, herr, hmode⟩ := h.step_rxdNack hc hroom hn hw
  cases rs with
  | false => exact ⟨u, run_succ_of_step (M := core) hstep 0, hwu, hu, herr, hmode rfl⟩
  | true =>
    obtain ⟨t, hstep', hwt, ht, herr', hmode'⟩ := hu.step_rstart hc hwu
    exact ⟨t, (run_succ_of_step (M := core) hstep 1).trans (run_succ_of_step (M := core) hstep' 0), hwt, ht,
      herr'.trans herr, hmode'⟩

end

/-! ### READ, and the address frame sent (spec/41_host_commands.md R90, spec/42_event_fsm.md R101) -/

/-- The address frame is to be sent: `TXBUF` holds it alone. -/
def FrameLoaded (addr : BitVec 7) (s : State) : Prop :=
  s.txidx = 0#8 ∧ s.txlen = 1#8 ∧ s.txbuf.read 0 = addressFrame addr

/-- READ from `Ready` loads the address frame and issues SEND_START. -/
theorem step_read {s : State} {rs : Bool} {addr : BitVec 7} {n : Byte} {q : List Packet} (hs : s.Inv)
    (hinit : s.initialised = true) (hm : s.mode = .ready) (hn : n.toNat ≤ s.cfg.rxMaxLen)
    (hw : s.Waits (encode s.cfg (.read rs addr n) :: q)) :
    ∃ t, step s = .next t ∧ t.Waits q ∧ FrameLoaded addr t ∧
      Receiving s.cfg rs n.toNat [] (s.trace ++ [.cr cwStart]) t := by
  have ⟨⟨⟨htx, _⟩, _⟩, htxbuf, hrxbuf, _⟩ := hs
  have hx := exec_of_execNext _ _ _ (.rxReady (s.take (encode s.cfg (.read rs addr n)) q) rs addr n hn hm htx)
  obtain ⟨hstep, hwait⟩ :=
    step_of_waits hw hw.1 ((FrameOf.read rs addr n).decode_eq s.cfg) ⟨nofun, nofun, fun _ => hinit⟩ hx
  exact ⟨_, hstep, hwait, ⟨rfl, rfl, Memory.read_copyIn_zero htxbuf [addressFrame addr]⟩,
    rfl, rfl, rfl, rfl, ⟨hrxbuf, nofun⟩, rfl⟩

/-- S_START sends the address frame. -/
theorem step_start_of_frameLoaded {c : Config} {rs : Bool} {n : Nat} {stored : List Byte} {tr : List PeriphWrite}
    {q : List Packet} {s : State} {addr : BitVec 7} (hf : FrameLoaded addr s) (h : Receiving c rs n stored tr s)
    (hc : c.Wf) (hw : s.Waits (eventOf c .start 0#8 :: q)) :
    ∃ t, step s = .next t ∧ t.Waits q ∧ Receiving c rs n stored (tr ++ [.dr (addressFrame addr), .cr cwXmit]) t := by
  obtain ⟨hidx, hlen, hbyte⟩ := hf
  have ⟨hcfg, _⟩ := h
  subst hcfg
  have hpend : s.txidx.toNat < s.txlen.toNat := by simp [hidx, hlen]
  have ⟨⟨hcap, _⟩, _⟩ := hc
  have hin : s.txidx.toNat < s.cfg.txMaxLen := by
    rw [hidx]
    exact hcap
  have hx := exec_of_execNext _ _ _ (.txStep (.evtStart (s.cfg.statusEnc.code .start))
    (s.take (eventOf s.cfg .start 0#8) q) _ s.mode (.inl ⟨rfl, rfl⟩) hpend hin)
  obtain ⟨hstep, hwait⟩ := step_eventOf (st := .start) hc hw hx
  have hfirst : s.txbuf.read s.txidx.toNat = addressFrame addr := by
    rw [hidx]
    exact hbyte
  rw [← hfirst]
  exact ⟨_, hstep, hwait,
    (((((h.take _ q).enterHandler _).setMode _).issueTransmit _).setTxIdx _).leaveContext⟩

/-! ### A read that completes -/

/-- Settles O46: READ, S_START and S_SLAR_ACK, then the bytes before the last, then the end of the transfer. -/
theorem completedReadStoresEveryByte : Obligations.CompletedReadStoresEveryByte := by
  intro s rs addr body last hs hctx hinit hm hroom hin
  have ⟨hc, _⟩ := hs
  have ⟨_, ⟨_, hcap⟩, _⟩ := hc
  have hlen : (BitVec.ofNat 8 (body.length + 1)).toNat = body.length + 1 := by
    rw [BitVec.toNat_ofNat, Nat.mod_eq_of_lt (by omega)]
  obtain ⟨s₁, hs₁, hw₁, hf, h₁⟩ := step_read hs hinit hm (by omega) ⟨hctx, hin⟩
  rw [hlen] at h₁
  obtain ⟨s₂, hs₂, hw₂, h₂⟩ := step_start_of_frameLoaded hf h₁ hc hw₁
  obtain ⟨s₃, hs₃, hw₃, h₃⟩ := h₂.step_slarAck hc rfl hw₂
  obtain ⟨s₄, hrun₄, hw₄, h₄⟩ := Receiving.run_body hc hroom body [] _ s₃ h₃ (by simp) hw₃
  obtain ⟨t, hrun, ⟨-, hnone⟩, ht, herr, hmode⟩ := h₄.run_end hc hroom (by simp) hw₄
  obtain ⟨-, -, hrxlen, hrxidx, ⟨-, hcells⟩, htr⟩ := ht
  simp only [List.nil_append, List.length_append, List.length_singleton] at hrxidx hcells
  refine ⟨t, ?_, hnone, hmode, herr, hrxidx, BitVec.eq_of_toNat_eq (hrxlen.trans hrxidx.symm), hcells, ?_⟩
  · calc core.run (body.length + if rs then 5 else 4) s
      _ = core.run (body.length + (if rs then 2 else 1) + 3) s := by cases rs <;> rfl
      _ = core.run (body.length + if rs then 2 else 1) s₃ := by
        rw [run_succ_of_step (M := core) hs₁, run_succ_of_step (M := core) hs₂, run_succ_of_step (M := core) hs₃]
      _ = core.run (if rs then 2 else 1) s₄ := run_add_of_next _ _ hrun₄
      _ = .next t := hrun
  · simpa [addressFrame_eq] using htr

end Sys2Proof.Machine
end

section
/-! PROOFS of the statements about the peripheral's contract (spec/43_peripheral_contract.md): what the peripheral sees
of each transaction, why no receive store is out of range under the contract, and the write that every slave
acknowledges. -/

namespace Sys2Proof.Machine

open Sys2Proof.Certificates

/-- `RXBUF` has room for a byte. -/
abbrev RxHasRoom (s : State) : Prop := s.rxidx.toNat < s.cfg.rxMaxLen

/-- The byte TXSTEP would send is pending and, as an address byte, would start a read. -/
abbrev ReadNext (s : State) : Prop := s.txPending = true ∧ (s.txbuf.read s.txidx.toNat).getLsbD 0 = true

/-! ### What the peripheral sees of a transaction, by the primitive it wrote (spec/40_primitives.md R79 to R83) -/

theorem Bus.after_eq {b : Bus} {i : Instr} {s t : State} {ws : List PeriphWrite} (htr : t.trace = s.trace ++ ws) :
    b.after i s t = ws.foldl Bus.see (b.deliver i) := by
  rw [Bus.after, htr, List.drop_left]

section
variable {b : Bus} {i : Instr} {s t : State} {P : Prop}

theorem Bus.after_of_start (htr : t.trace = s.trace ++ [.cr cwStart]) :
    b.after i s t = { b.deliver i with busy := .start, staged := none } :=
  Bus.after_eq htr

theorem Bus.after_of_stop (htr : t.trace = s.trace ++ [.cr cwStop]) :
    b.after i s t = { b.deliver i with owned := false, busy := .nothing, staged := none } :=
  Bus.after_eq htr

theorem Bus.after_of_transmit {x : Byte} (htr : t.trace = s.trace ++ [.dr x] ++ [.cr cwXmit]) :
    b.after i s t = { b.deliver i with busy := .byte x, staged := none } :=
  Bus.after_eq (htr.trans (List.append_assoc ..))

theorem Bus.after_of_ack (htr : t.trace = s.trace ++ [.cr cwAck]) :
    b.after i s t = { b.deliver i with busy := .receive true, staged := none } :=
  Bus.after_eq htr

theorem Bus.deliver_staged (hst : b.staged = none) : (b.deliver i).staged = none := by
  cases i
  case reset => rfl
  all_goals exact hst

/-- With no byte staged the control word that SEND_NACK shares with SEND_TRANSMIT is SEND_NACK
(spec/30_encoding.md R72). -/
theorem Bus.after_of_nack (htr : t.trace = s.trace ++ [.cr cwNack]) (hst : b.staged = none) :
    b.after i s t = { b.deliver i with busy := .receive false, staged := none } := by
  rw [Bus.after_eq htr]
  simp [Bus.see, cwNack, Bus.deliver_staged hst]

theorem Bus.after_of_quiet (htr : t.trace = s.trace) : b.after i s t = b.deliver i :=
  Bus.after_eq (ws := []) (htr.trans (List.append_nil _).symm)

theorem Bus.after_of_enable {v : Nat} (htr : t.trace = s.trace ++ [.br v] ++ [.cr cwEnable]) :
    b.after i s t = { b.deliver i with staged := none } :=
  Bus.after_eq (htr.trans (List.append_assoc ..))

/-- After a reset nothing is outstanding (log 24). -/
theorem Bus.after_of_reset (htr : t.trace = []) : b.after .reset s t = Bus.idle := by
  rw [Bus.after, htr, List.drop_nil]
  rfl

/-! ### The bound after a transaction: one rule per primitive, which asks for what the bound then says of it -/

theorem RxBound.after_start (htr : t.trace = s.trace ++ [.cr cwStart]) (hinv : t.Inv)
    (hm : t.mode ≠ .repeatedStartSent) (hP : (b.deliver i).owned = false → ReadNext t → P) :
    RxBound (b.after i s t) t P := by
  rw [Bus.after_of_start htr]
  exact ⟨hinv, rfl, fun h => absurd h hm, fun ho hpend hbit => hP ho ⟨hpend, hbit⟩⟩

/-- A repeated start sends no read address: it is answered by S_RSTART (R122). -/
theorem RxBound.after_restart (htr : t.trace = s.trace ++ [.cr cwStart]) (hinv : t.Inv)
    (hm : t.mode ≠ .repeatedStartSent) (howned : (b.deliver i).owned = true) : RxBound (b.after i s t) t P :=
  .after_start htr hinv hm fun hfree => by simp [howned] at hfree

theorem RxBound.after_stop (htr : t.trace = s.trace ++ [.cr cwStop]) (hinv : t.Inv) (hm : t.mode = .ready) :
    RxBound (b.after i s t) t P := by
  rw [Bus.after_of_stop htr]
  exact ⟨hinv, rfl, fun h => by simp [hm] at h, trivial⟩

theorem RxBound.after_transmit {x : Byte} (htr : t.trace = s.trace ++ [.dr x] ++ [.cr cwXmit]) (hinv : t.Inv)
    (hm : t.mode ≠ .repeatedStartSent) (howned : (b.deliver i).owned = true)
    (hroom : (b.deliver i).atAddress = true → x.getLsbD 0 = true → RxHasRoom t) : RxBound (b.after i s t) t P := by
  rw [Bus.after_of_transmit htr]
  exact ⟨hinv, rfl, fun h => absurd h hm, howned, hroom⟩

theorem RxBound.after_ack (htr : t.trace = s.trace ++ [.cr cwAck]) (hinv : t.Inv) (hm : t.mode ≠ .repeatedStartSent)
    (howned : (b.deliver i).owned = true) (hmore : t.rxidx.toNat + 1 < t.rxlen.toNat) :
    RxBound (b.after i s t) t P := by
  rw [Bus.after_of_ack htr]
  exact ⟨hinv, rfl, fun h => absurd h hm, howned, hmore⟩

theorem RxBound.after_nack (htr : t.trace = s.trace ++ [.cr cwNack]) (hst : b.staged = none) (hinv : t.Inv)
    (hm : t.mode ≠ .repeatedStartSent) (howned : (b.deliver i).owned = true) (hroom : RxHasRoom t) :
    RxBound (b.after i s t) t P := by
  rw [Bus.after_of_nack htr hst]
  exact ⟨hinv, rfl, fun h => absurd h hm, howned, hroom⟩

theorem RxBound.after_quiet (htr : t.trace = s.trace) (h : RxBound (b.deliver i) t P) :
    RxBound (b.after i s t) t P := by
  rwa [Bus.after_of_quiet htr]

/-! ### What the bound says when the peripheral reports (spec/43_peripheral_contract.md R122 to R127) -/

/-- Commands, events and the reset: the outside presents no primitive (spec/40_primitives.md R78). -/
def Presented : Instr → Prop
  | .sendStart | .sendStop | .sendTransmit _ | .sendAck | .sendNack | .initCw => False
  | _ => True

theorem presented_of_launchPremise (h : launchPremise s i = true) : Presented i := by
  cases i
  case sendStart | sendStop | sendTransmit | sendAck | sendNack | initCw => simp [launchPremise] at h
  all_goals trivial

/-- The events that answer a primitive: a bus error may come at any time (R127). -/
abbrev Answers (i : Instr) : Prop := IsEvent i ∧ ∀ sr, i ≠ .evtBuserr sr

theorem Bus.busy_ne_of_answers (ha : b.allows i = true) (hi : Answers i) : b.busy ≠ .nothing := by
  intro hb
  obtain ⟨hevent, herr⟩ := hi
  cases i
  case evtBuserr sr => exact herr sr rfl
  all_goals simp_all [Bus.allows, IsEvent]

/-- An answer finds the block in the middle of a transfer. -/
theorem RxBound.mode_ne (hs : RxBound b s P) (ha : b.allows i = true) (hi : Answers i) :
    s.mode ≠ .repeatedStartSent := by
  obtain ⟨-, -, hheld, -⟩ := hs
  exact fun hm => Bus.busy_ne_of_answers ha hi (hheld hm).2

theorem RxBound.of_byte {x : Byte} (hs : RxBound b s P) (hb : b.busy = .byte x) :
    b.owned = true ∧ (b.atAddress = true → x.getLsbD 0 = true → RxHasRoom s) := by
  obtain ⟨-, -, -, hbusy⟩ := hs
  simpa only [hb] using hbusy

theorem RxBound.of_start (hs : RxBound b s P) (hb : b.busy = .start) (ho : b.owned = false) (hr : ReadNext s) : P := by
  obtain ⟨-, -, -, hbusy⟩ := hs
  obtain ⟨hpend, hbit⟩ := hr
  rw [hb] at hbusy
  exact hbusy ho hpend hbit

theorem RxBound.of_receive_ack (hs : RxBound b s P) (hb : b.busy = .receive true) :
    b.owned = true ∧ s.rxidx.toNat + 1 < s.rxlen.toNat := by
  obtain ⟨-, -, -, hbusy⟩ := hs
  simpa only [hb] using hbusy

theorem RxBound.of_receive_nack (hs : RxBound b s P) (hb : b.busy = .receive false) : b.owned = true ∧ RxHasRoom s := by
  obtain ⟨-, -, -, hbusy⟩ := hs
  simpa only [hb] using hbusy

/-- Between a start and the next one the block owns the bus. -/
theorem RxBound.owned_of_busy (hs : RxBound b s P) (hb : b.busy ≠ .nothing) (hstart : b.busy ≠ .start) :
    b.owned = true := by
  cases hbusy : b.busy with
  | nothing => exact absurd hbusy hb
  | start => exact absurd hbusy hstart
  | byte x => exact (hs.of_byte hbusy).1
  | receive ack =>
    cases ack with
    | true => exact (hs.of_receive_ack hbusy).1
    | false => exact (hs.of_receive_nack hbusy).1

/-- After an answer the block owns the bus, but for a lost arbitration (R122). -/
theorem RxBound.owned_of_answers (hs : RxBound b s P) (ha : b.allows i = true) (hi : Answers i)
    (harb : ∀ sr, i ≠ .evtArbLost sr) : (b.deliver i).owned = true := by
  have hbusy := Bus.busy_ne_of_answers ha hi
  obtain ⟨hevent, herr⟩ := hi
  cases i
  case evtBuserr sr => exact absurd rfl (herr sr)
  case evtArbLost sr => exact absurd rfl (harb sr)
  case evtStart | evtRstart => rfl
  case evtSlawAck | evtSlawNack | evtSlarAck | evtSlarNack | evtTxdAck | evtTxdNack | evtRxdAck | evtRxdNack |
      evtNoinfo | evtUnlisted =>
    exact hs.owned_of_busy hbusy fun hstart => by simp [Bus.allows, hstart] at ha
  all_goals exact hevent.elim

/-- S_SLAR_ACK follows an address byte that starts a read, for which there is room (R123). -/
theorem RxBound.room_of_slarAck {sr : Byte} (hs : RxBound b s P) (ha : b.allows (.evtSlarAck sr) = true) :
    RxHasRoom s := by
  cases hb : b.busy with
  | byte x =>
    simp only [Bus.allows, hb, Bool.and_eq_true] at ha
    obtain ⟨haddr, hread⟩ := ha
    exact (hs.of_byte hb).2 haddr hread
  | _ => simp [Bus.allows, hb] at ha

/-- S_RXD_ACK follows SEND_ACK, after which a further byte is to come (R124). -/
theorem RxBound.more_of_rxdAck {sr dr : Byte} (hs : RxBound b s P) (ha : b.allows (.evtRxdAck sr dr) = true) :
    s.rxidx.toNat + 1 < s.rxlen.toNat :=
  (hs.of_receive_ack (by simpa [Bus.allows] using ha)).2

theorem RxBound.room_of_rxdNack {sr dr : Byte} (hs : RxBound b s P) (ha : b.allows (.evtRxdNack sr dr) = true) :
    RxHasRoom s :=
  (hs.of_receive_nack (by simpa [Bus.allows] using ha)).2

/-- The byte a held bus is sent by TRANSMIT is no read address (spec/41_host_commands.md R89 (e)). -/
theorem not_read_of_held {rs : Bool} {data : List Byte} (h : noReadFrameInTransmit s (.transmit rs data) = true)
    (hm : s.mode = .repeatedStartSent) : (data.headD (s.txbuf.read 0)).getLsbD 0 ≠ true := by
  cases data <;> simpa [noReadFrameInTransmit, hm] using h

/-- Nor is the one S_START sends of a frame TRANSMIT has just loaded. -/
theorem not_readNext_of_loadTx {rs : Bool} {data : List Byte} (hwf : s.txbuf.wf)
    (h : noReadFrameInTransmit s (.transmit rs data) = true) : ¬ ReadNext (s.loadTx rs data) := by
  rintro ⟨hpend, hbit⟩
  cases data with
  | nil => simp [State.txPending] at hpend
  | cons x xs =>
    change ((s.txbuf.copyIn 0 (x :: xs)).read 0).getLsbD 0 = true at hbit
    rw [Memory.read_copyIn_zero hwf] at hbit
    exact absurd hbit (by simpa [noReadFrameInTransmit] using h)

/-- A read address that S_START sends is READ's, a frame's first byte (R123, log 21). -/
theorem txidx_eq_zero_of_readNext {sr : Byte} (h : noReadResumedInTransmit s (.evtStart sr) = true) (hr : ReadNext s) :
    s.txidx = 0#8 := by
  obtain ⟨hpend, hbit⟩ := hr
  simpa only [noReadResumedInTransmit, hpend, hbit, Bool.not_true, Bool.or_false, beq_iff_eq] using h

/-! ### No fault, and the bound is kept -/

/-- Under the bound no instruction the peripheral may deliver is a fault. -/
theorem RxBound.exec_ne_fault (hs : RxBound b s P) (ha : b.allows i = true) (f : Fault) : exec i s ≠ .fault f := by
  have ⟨⟨⟨⟨htx, _⟩, _⟩, _, _, _, _, htxlen, _, hrxlen, _⟩, _⟩ := hs
  intro hx
  rcases exec_fault i s f hx with ⟨hfull, -, sr, dr, rfl | rfl⟩ | ⟨hge, hlt⟩ | hzero
  · have := hs.more_of_rxdAck ha
    omega
  · have := hs.room_of_rxdNack ha
    omega
  · omega
  · omega

/-- TXSTEP's row: the events answer, and none is a lost arbitration. -/
theorem TxRow.answers {sr : Byte} {old m : Mode} (hi : TxRow i sr old m) :
    Answers i ∧ ∀ sr, i ≠ .evtArbLost sr := by
  rcases hi with ⟨rfl, -⟩ | ⟨rfl, -⟩ | ⟨rfl, -⟩ <;> exact ⟨⟨trivial, nofun⟩, nofun⟩

theorem TxRow.mode_ne {sr : Byte} {old m : Mode} (hi : TxRow i sr old m) (hold : old ≠ .repeatedStartSent) :
    m ≠ .repeatedStartSent := by
  rcases hi with ⟨-, rfl⟩ | ⟨-, rfl⟩ | ⟨-, rfl⟩
  · exact hold
  · exact nofun
  · exact hold

/-- TXSTEP's row sends an address byte at S_START only (R123), and then what the bound says of it holds. -/
theorem RxBound.start_of_txRow {sr : Byte} {old m : Mode} (hs : RxBound b s P) (ha : b.allows i = true)
    (hi : TxRow i sr old m) (haddr : (b.deliver i).atAddress = true) (hr : ReadNext s) : i = .evtStart sr ∧ P := by
  rcases hi with ⟨rfl, -⟩ | ⟨rfl, -⟩ | ⟨rfl, -⟩
  · simp only [Bus.allows, Bool.and_eq_true, beq_iff_eq, Bool.not_eq_true'] at ha
    obtain ⟨hb, hfree⟩ := ha
    exact ⟨rfl, hs.of_start hb hfree hr⟩
  · simp [Bus.deliver] at haddr
  · cases hb : b.busy <;> simp_all [Bus.allows, Bus.deliver]

/-- Every instruction keeps the bound with room wherever S_START sends a read address from a `TXIDX` in `G`, if it sends
one from no other `TXIDX` and a lost arbitration leaves room there too. `RxSafe` is the case of the frame's first byte,
`RxRoom` that of every byte. -/
theorem ExecNext.keeps_rxBound {G : Byte → Prop} (h : ExecNext i s t) (hs : RxBound b s (G s.txidx → RxHasRoom s))
    (hp : Presented i) (ha : b.allows i = true) (hframe : noReadFrameInTransmit s i = true)
    (hstart : ∀ sr, i = .evtStart sr → ReadNext s → G s.txidx)
    (harb : ∀ sr, i = .evtArbLost sr → s.rs = true → ReadNext s → G s.txidx → RxHasRoom s) :
    RxBound (b.after i s t) t (G t.txidx → RxHasRoom t) := by
  have hinv := h.keeps_inv hs.1
  have ⟨⟨⟨⟨htx, _⟩, ⟨hrx, _⟩, _⟩, hwf, _, _, _, _, _, hrxlen, _⟩, hst, hheld, hbusy⟩ := hs
  cases h
  case sendStart | sendStop | sendTransmit | sendAck | sendNack | initCw => exact hp.elim
  case noinfo | unlisted => simp [Bus.allows] at ha
  case reset =>
    rw [Bus.after_of_reset rfl]
    exact ⟨hinv, rfl, nofun, trivial⟩
  case init =>
    rw [Bus.after_of_enable rfl]
    exact ⟨hinv, rfl, nofun, hbusy⟩
  case txLong | txBusy | rxLong | rxBusy => exact .after_quiet rfl hs
  case answer hi =>
    rcases hi with ⟨rfl, -⟩ | ⟨rfl, -⟩ | ⟨rfl, -⟩ | ⟨k, rfl, -⟩ <;> exact .after_quiet rfl hs
  case rxNoTx hno => exact absurd htx (Nat.not_le_of_lt hno)
  case txReady rs d _ _ =>
    exact .after_start rfl hinv nofun fun _ hr => absurd hr (not_readNext_of_loadTx hwf hframe)
  case rxReady => exact .after_start rfl hinv nofun fun _ _ _ => hrx
  case txHeld rs d _ hm _ =>
    have hbit := not_read_of_held hframe hm
    rw [← Memory.read_copyIn_zero hwf] at hbit
    exact .after_transmit rfl hinv nofun (hheld hm).1 fun _ hread => absurd hread hbit
  case rxHeld hm _ => exact .after_transmit rfl hinv nofun (hheld hm).1 fun _ _ => hrx
  case txStep sr m hpend _ hi =>
    obtain ⟨hans, hne⟩ := TxRow.answers hi
    refine .after_transmit rfl hinv (TxRow.mode_ne hi (hs.mode_ne ha hans)) (hs.owned_of_answers ha hans hne)
      fun haddr hread => ?_
    have hr : ReadNext s := ⟨s.txPending_iff.mpr hpend, hread⟩
    obtain ⟨rfl, hroom⟩ := hs.start_of_txRow ha hi haddr hr
    exact hroom (hstart sr rfl hr)
  case txStart sr m _ _ hi =>
    obtain ⟨hans, hne⟩ := TxRow.answers hi
    exact .after_restart rfl hinv (TxRow.mode_ne hi (hs.mode_ne ha hans)) (hs.owned_of_answers ha hans hne)
  case rxStart sr dr _ _ =>
    have hans : Answers (.evtRxdNack sr dr) := ⟨trivial, nofun⟩
    exact .after_restart rfl hinv (hs.mode_ne ha hans) (hs.owned_of_answers ha hans nofun)
  case failStart sr hi hrs =>
    have hans : Answers i := by rcases hi with rfl | rfl | rfl | rfl <;> exact ⟨trivial, nofun⟩
    refine .after_start rfl hinv (hs.mode_ne ha hans) fun hlost hr => ?_
    by_cases hcase : ∃ sr, i = .evtArbLost sr
    · obtain ⟨sr, rfl⟩ := hcase
      exact harb sr rfl hrs hr
    · simp [hs.owned_of_answers ha hans (not_exists.mp hcase)] at hlost
  case txStop | rxStop | failStop | buserr => exact .after_stop rfl hinv rfl
  case slarAck sr hmore =>
    have hans : Answers (.evtSlarAck sr) := ⟨trivial, nofun⟩
    exact .after_ack rfl hinv nofun (hs.owned_of_answers ha hans nofun) hmore
  case slarNack sr _ =>
    have hans : Answers (.evtSlarAck sr) := ⟨trivial, nofun⟩
    exact .after_nack rfl hst hinv nofun (hs.owned_of_answers ha hans nofun) (hs.room_of_slarAck ha)
  case rxAck sr dr _ hmore =>
    have hans : Answers (.evtRxdAck sr dr) := ⟨trivial, nofun⟩
    exact .after_ack rfl hinv (hs.mode_ne ha hans) (hs.owned_of_answers ha hans nofun) hmore
  case rxNack sr dr hlt _ =>
    have hans : Answers (.evtRxdAck sr dr) := ⟨trivial, nofun⟩
    have hmore := hs.more_of_rxdAck ha
    have hroom : (s.rxidx + 1#8).toNat < s.cfg.rxMaxLen := by
      rw [State.succ_rxidx_toNat hs.1 hlt]
      omega
    exact .after_nack rfl hst hinv (hs.mode_ne ha hans) (hs.owned_of_answers ha hans nofun) hroom
  case rstart sr => exact .after_quiet rfl ⟨hinv, hst, fun _ => ⟨rfl, rfl⟩, trivial⟩

theorem FrameBegun.after_quiet (htr : t.trace = s.trace) (h : FrameBegun (b.deliver i) t) :
    FrameBegun (b.after i s t) t := by
  rwa [Bus.after_of_quiet htr]

/-- While a byte or the slave's answer to it is under way, `TXIDX` has left the frame's start. -/
theorem FrameBegun.txidx_ne (hf : FrameBegun b s) (hb : b.busy ≠ .nothing) (hstart : b.busy ≠ .start) :
    s.txidx ≠ 0#8 := by
  cases hbusy : b.busy with
  | nothing => exact absurd hbusy hb
  | start => exact absurd hbusy hstart
  | byte x => simpa only [FrameBegun, hbusy] using hf
  | receive ack => simpa only [FrameBegun, hbusy] using hf

/-- At every answer but a start's `TXIDX` has left the frame's start. -/
theorem FrameBegun.txidx_ne_of_answers (hf : FrameBegun b s) (ha : b.allows i = true) (hi : Answers i)
    (hstart : ∀ sr, i ≠ .evtStart sr) (hrstart : ∀ sr, i ≠ .evtRstart sr) : s.txidx ≠ 0#8 := by
  refine hf.txidx_ne (Bus.busy_ne_of_answers ha hi) fun hb => ?_
  obtain ⟨hevent, herr⟩ := hi
  cases i
  case evtStart sr => exact hstart sr rfl
  case evtRstart sr => exact hrstart sr rfl
  case evtBuserr sr => exact herr sr rfl
  all_goals simp_all [Bus.allows, IsEvent]

/-- Every instruction keeps it that something of the frame has gone out: it leaves the peripheral idle or asked for a
start, has just sent a byte of the frame, or `TXIDX` stays where it had left the frame's start. -/
theorem ExecNext.keeps_frameBegun (h : ExecNext i s t) (hf : FrameBegun b s) (hst : b.staged = none)
    (hp : Presented i) (ha : b.allows i = true) : FrameBegun (b.after i s t) t := by
  cases h
  case sendStart | sendStop | sendTransmit | sendAck | sendNack | initCw => exact hp.elim
  case noinfo | unlisted => simp [Bus.allows] at ha
  case reset =>
    rw [Bus.after_of_reset rfl]
    trivial
  case init =>
    rw [Bus.after_of_enable rfl]
    exact hf
  case txLong | txBusy | rxLong | rxBusy | rxNoTx => exact .after_quiet rfl hf
  case answer hi =>
    rcases hi with ⟨rfl, -⟩ | ⟨rfl, -⟩ | ⟨rfl, -⟩ | ⟨k, rfl, -⟩ <;> exact .after_quiet rfl hf
  case rstart => exact .after_quiet rfl trivial
  case txReady | rxReady | txStart | rxStart | failStart =>
    rw [Bus.after_of_start rfl]
    trivial
  case txStop | rxStop | failStop | buserr =>
    rw [Bus.after_of_stop rfl]
    trivial
  case txHeld | rxHeld =>
    rw [Bus.after_of_transmit rfl]
    exact (by decide : (1#8 : Byte) ≠ 0#8)
  case txStep hpend _ _ =>
    rw [Bus.after_of_transmit rfl]
    have hsucc : s.txidx + 1#8 ≠ 0#8 := by bv_omega
    exact hsucc
  case slarAck | rxAck =>
    rw [Bus.after_of_ack rfl]
    exact hf.txidx_ne_of_answers ha ⟨trivial, nofun⟩ nofun nofun
  case slarNack | rxNack =>
    rw [Bus.after_of_nack rfl hst]
    exact hf.txidx_ne_of_answers ha ⟨trivial, nofun⟩ nofun nofun

/-! ### Steps and runs under the contract -/

/-- What a step that takes a packet answers comes from its instruction. -/
theorem step_fault {p : Packet} {q : List Packet} {f : Fault} (hin : s.inputs = p :: q)
    (hd : decode s.cfg p = .instr i) (h : step s = .fault f) : exec i (s.take p q) = .fault f := by
  rcases step_cases s with ⟨-, hs⟩ | ⟨_, _, _, -, -, hs⟩ | ⟨_, _, _, -, -, -, hs⟩ | ⟨_, _, _, _, -, -, -, -, hs⟩ |
      ⟨p', q', i', hin', -, hd', -, hs⟩
  · cases hs.symm.trans h
  · cases hs.symm.trans h
  · cases hs.symm.trans h
  · cases hs.symm.trans h
  · cases hin.symm.trans hin'
    cases hd.symm.trans hd'
    exact (endTransaction_eq_fault _ f).mp (hs.symm.trans h)

theorem step_next_of_inputs {p : Packet} {q : List Packet} (hin : s.inputs = p :: q)
    (hd : decode s.cfg p = .instr i) (h : step s = .next t) :
    ∃ u, exec i (s.take p q) = .next u ∧ t = u.leaveContext := by
  rcases step_next s t h with ⟨hnil, -⟩ | ⟨p', q', i', u, hin', -, hd', -, hx, ht⟩
  · cases hin.symm.trans hnil
  · cases hin.symm.trans hin'
    cases hd.symm.trans hd'
    exact ⟨u, hx, ht⟩

end

/-- Settles O44: the block's invariant holds and nothing is outstanding. -/
theorem contractHoldsAtReset : Obligations.ContractHoldsAtReset := fun c hc =>
  ⟨⟨⟨State.resetWith_inv c hc, rfl, nofun, trivial⟩, trivial⟩, State.resetWith_inv c hc, rfl, nofun, trivial⟩

/-- Settles O43, by the two parts of the bound. S_START sends a read address from a frame's first byte only, which is the
premise on resumed bytes, and a lost arbitration leaves `TXIDX` past it. -/
theorem noOverrunUnderTheContract : Obligations.NoOverrunUnderTheContract := by
  intro b s p q i ⟨hb, hf⟩ hin hd hk
  simp only [contractKept, readsOnlyWithRead, Bool.and_eq_true] at hk
  obtain ⟨⟨hl, ha⟩, hframe, hresumed⟩ := hk
  have hb' : RxBound b (s.take p q) (s.txidx = 0#8 → RxHasRoom s) := hb
  refine ⟨fun f h => hb'.exec_ne_fault ha f (step_fault hin hd h), fun t h => ?_⟩
  obtain ⟨u, hx, rfl⟩ := step_next_of_inputs hin hd h
  have hnext := exec_next i _ u hx
  have hp := presented_of_launchPremise hl
  refine ⟨hnext.keeps_rxBound (G := (· = 0#8)) hb' hp ha hframe ?_ ?_, hnext.keeps_frameBegun hf hb.2.1 hp ha⟩
  · rintro sr rfl hr
    exact txidx_eq_zero_of_readNext (sr := sr) hresumed hr
  · rintro sr rfl - - hzero
    exact absurd hzero (hf.txidx_ne_of_answers ha ⟨trivial, nofun⟩ nofun nofun)

/-- A run that faults does so at its first step or after it. -/
theorem run_succ_fault {M : Host.Core} {k : Nat} {s : M.State} {f : M.Fault} (h : M.run (k + 1) s = .fault f) :
    M.step s = .fault f ∨ ∃ u, M.step s = .next u ∧ M.run k u = .fault f := by
  rw [Host.Core.run] at h
  split at h
  · next u hs => exact .inr ⟨u, hs, h⟩
  · next g hs =>
    cases h
    exact .inl hs
  · cases h

/-- With nothing presented a run keeps every premise. -/
theorem runKeeps_of_idle {P : Bus → State → Instr → Prop} {b : Bus} {s : State} (hin : s.inputs = []) :
    ∀ k, RunKeeps P k b s
  | 0 => trivial
  | k + 1 => by simp [RunKeeps, hin]

/-- The induction over a run in which every transaction keeps a premise `P`, once: where `P` makes a step from `I` no
fault and leads it back to `I`, no such run that starts there is a fault. -/
theorem run_ne_fault_of_runKeeps {P : Bus → State → Instr → Prop} {I : Bus → State → Prop}
    (hstep : ∀ b s p q i, I b s → s.inputs = p :: q → decode s.cfg p = .instr i → P b s i →
      (∀ f, step s ≠ .fault f) ∧ ∀ t, step s = .next t → I (b.after i s t) t) :
    ∀ (k : Nat) (b : Bus) (s : State), I b s → RunKeeps P k b s → ∀ f, core.run k s ≠ .fault f
  | 0, _, _, _, _, _ => nofun
  | k + 1, b, s, hI, hk, f => by
    cases hin : s.inputs with
    | nil =>
      rw [run_succ_of_step (M := core) (step_of_idle hin) k]
      exact run_ne_fault_of_runKeeps hstep k b s hI (runKeeps_of_idle hin k) f
    | cons p q =>
      cases hd : decode s.cfg p with
      | reject r => simp [RunKeeps, hin, hd] at hk
      | instr i =>
        simp only [RunKeeps, hin, hd] at hk
        obtain ⟨hP, hrest⟩ := hk
        obtain ⟨hfault, hnext⟩ := hstep b s p q i hI hin hd hP
        intro h
        rcases run_succ_fault (M := core) h with hs | ⟨u, hs, hrun⟩
        · exact hfault f hs
        · exact run_ne_fault_of_runKeeps hstep k _ u (hnext u hs) (hrest u hs) f hrun

/-- Settles O48: O43 at every step. -/
theorem noRunUnderTheContractFaults : Obligations.NoRunUnderTheContractFaults :=
  run_ne_fault_of_runKeeps noOverrunUnderTheContract

/-! ### A write under way: one rule per operation of its events (spec/42_event_fsm.md R97, R100) -/

/-- A write is under way, with the parameters `c` and the given `RS`: `sent` has gone out and `rest` is to be sent, `res`
are the results given and `tr` is what has been written to the peripheral. -/
def Transmitting (c : Config) (rs : Bool) (sent rest res : List Byte) (tr : List PeriphWrite) (s : State) : Prop :=
  s.cfg = c ∧ s.rs = rs ∧ s.txlen.toNat = (sent ++ rest).length ∧ s.txidx.toNat = sent.length ∧
    s.txbuf.Holds (sent ++ rest) ∧ s.results = res ∧ s.trace = tr

/-- SEND_TRANSMIT's two writes (spec/40_primitives.md R81). -/
def transmitWrites (b : Byte) : List PeriphWrite := [.dr b, .cr cwXmit]

/-- The statuses of TXSTEP's row (spec/42_event_fsm.md R101 to R103). -/
def SendsNext (st : Status) : Prop := st = .start ∨ st = .slawAck ∨ st = .txdAck

theorem SendsNext.txRow {st : Status} (h : SendsNext st) (sr dr : Byte) (old : Mode) :
    ∃ m, TxRow (eventInstr (some st) sr dr) sr old m := by
  rcases h with rfl | rfl | rfl
  · exact ⟨old, .inl ⟨rfl, rfl⟩⟩
  · exact ⟨.masterTransmitter, .inr (.inl ⟨rfl, rfl⟩)⟩
  · exact ⟨old, .inr (.inr ⟨rfl, rfl⟩)⟩

/-- With nothing left to send TXSTEP's row ends the transfer. -/
theorem exec_txRow_finish {i : Instr} {s : State} {sr : Byte} {m : Mode} (hi : TxRow i sr s.mode m)
    (hend : s.txlen.toNat ≤ s.txidx.toNat) :
    exec i s = .next (((s.enterHandler sr).setMode m).finish 0xFF#8) := by
  rcases ((s.enterHandler sr).setMode m).finish_cases 0xFF#8 with ⟨hrs, hfin⟩ | ⟨hrs, hfin⟩
  · rw [hfin]
    exact exec_of_execNext _ _ _ (.txStart i s sr m hi hend hrs)
  · rw [hfin]
    have hrow := hi.imp And.left (Or.imp And.left And.left)
    exact exec_of_execNext _ _ _ (.txStop i s sr hrow hend hrs)

/-- A copy to the start puts its bytes there in order. -/
theorem Memory.holds_copyIn {m : Memory} (hm : m.wf) (data : List Byte) : (m.copyIn 0 data).Holds data :=
  ⟨Memory.wf_copyIn data m 0 hm, fun k hk => by simp [Memory.read_copyIn data m 0 k hm, hk]⟩

section
variable {c : Config} {rs : Bool} {sent rest res : List Byte} {tr : List PeriphWrite} {q : List Packet} {s : State}

theorem Transmitting.finish (h : Transmitting c rs sent rest res tr s) (e : Byte) :
    Transmitting c rs sent rest res (tr ++ [.cr (if rs then cwStart else cwStop)]) (s.finish e) := by
  obtain ⟨hcfg, hrs, hlen, hidx, hbuf, hres, rfl⟩ := h
  rcases s.finish_cases e with ⟨hs, hfin⟩ | ⟨hs, hfin⟩
  · rw [hfin, if_pos (hrs ▸ hs)]
    exact ⟨hcfg, hrs, hlen, hidx, hbuf, hres, rfl⟩
  · rw [hfin, if_neg (by simp [← hrs, hs])]
    exact ⟨hcfg, hrs, hlen, hidx, hbuf, hres, rfl⟩

/-- Staging sends the next byte. -/
theorem Transmitting.stage {b : Byte} (h : Transmitting c rs sent (b :: rest) res tr s) :
    Transmitting c rs (sent ++ [b]) rest res (tr ++ transmitWrites b)
      ((s.issueTransmit (s.txbuf.read s.txidx.toNat)).setTxIdx (s.txidx + 1#8)) := by
  obtain ⟨hcfg, hrs, hlen, hidx, hbuf, hres, rfl⟩ := h
  have hbyte : s.txbuf.read s.txidx.toNat = b := by
    rw [hidx, hbuf.2 _ (by simp)]
    simp
  have hidx' : (s.txidx + 1#8).toNat = (sent ++ [b]).length := by
    rw [toNat_succ_of_lt (n := s.txlen.toNat) (by simp [hlen, hidx]) (by have := s.txlen.isLt; omega), hidx,
      List.length_append, List.length_singleton]
  rw [List.append_cons] at hlen hbuf
  rw [hbyte]
  exact ⟨hcfg, hrs, hlen, hidx', hbuf, hres, by simp [transmitWrites]⟩

/-! ### The events of a write, as steps -/

/-- TRANSMIT from `Ready` loads the frame and issues SEND_START (spec/41_host_commands.md R88). -/
theorem step_transmit {data : List Byte} (hs : s.Inv) (hinit : s.initialised = true) (hm : s.mode = .ready)
    (hlen : data.length ≤ s.cfg.txMaxLen) (hw : s.Waits (encode s.cfg (.transmit rs data) :: q)) :
    ∃ t, step s = .next t ∧ t.Waits q ∧
      Transmitting s.cfg rs [] data (s.results ++ [0x00#8]) (s.trace ++ [.cr cwStart]) t := by
  have ⟨⟨⟨_, hcap⟩, _⟩, htxbuf, _⟩ := hs
  have hx := exec_of_execNext _ _ _ (.txReady (s.take (encode s.cfg (.transmit rs data)) q) rs data hlen hm)
  obtain ⟨hstep, hwait⟩ :=
    step_of_waits hw hw.1 ((FrameOf.transmit rs data (by omega)).decode_eq s.cfg) ⟨nofun, nofun, fun _ => hinit⟩ hx
  have htxlen : (BitVec.ofNat 8 data.length).toNat = data.length := by
    rw [BitVec.toNat_ofNat, Nat.mod_eq_of_lt (by omega)]
  exact ⟨_, hstep, hwait, rfl, rfl, htxlen, rfl, Memory.holds_copyIn htxbuf data, rfl, rfl⟩

/-- An event of TXSTEP's row with a byte left to send. -/
theorem Transmitting.step_stage {b : Byte} {st : Status} (h : Transmitting c rs sent (b :: rest) res tr s) (hc : c.Wf)
    (hfit : (sent ++ b :: rest).length ≤ c.txMaxLen) (hst : SendsNext st)
    (hw : s.Waits (eventOf c st 0#8 :: q)) :
    ∃ t, step s = .next t ∧ t.Waits q ∧ Transmitting c rs (sent ++ [b]) rest res (tr ++ transmitWrites b) t := by
  have ⟨hcfg, _, hlen, hidx, _⟩ := h
  subst hcfg
  have hpend : s.txidx.toNat < s.txlen.toNat := by simp [hlen, hidx]
  obtain ⟨m, hrow⟩ := hst.txRow (s.cfg.statusEnc.code st) 0#8 s.mode
  have hx := exec_of_execNext _ _ _ (.txStep _ (s.take (eventOf s.cfg st 0#8) q) _ m hrow hpend
    (by rw [← hlen] at hfit; exact lt_of_lt_of_le hpend hfit))
  obtain ⟨hstep, hwait⟩ := step_eventOf hc hw hx
  exact ⟨_, hstep, hwait, h.stage⟩

/-- An event of TXSTEP's row with nothing left to send. -/
theorem Transmitting.step_finish {st : Status} (h : Transmitting c rs sent [] res tr s) (hc : c.Wf) (hst : SendsNext st)
    (hw : s.Waits (eventOf c st 0#8 :: q)) :
    ∃ t, step s = .next t ∧ t.Waits q ∧
      Transmitting c rs sent [] res (tr ++ [.cr (if rs then cwStart else cwStop)]) t ∧
      t.err = 0xFF#8 ∧ (rs = false → t.mode = .ready) := by
  have ⟨hcfg, hrs, hlen, hidx, _⟩ := h
  subst hcfg
  obtain ⟨m, hrow⟩ := hst.txRow (s.cfg.statusEnc.code st) 0#8 s.mode
  have hx := exec_txRow_finish (s := s.take (eventOf s.cfg st 0#8) q) hrow (by simp [hlen, hidx])
  obtain ⟨hstep, hwait⟩ := step_eventOf hc hw hx
  have hsent : Transmitting s.cfg rs sent [] res tr
    (((s.take (eventOf s.cfg st 0#8) q).enterHandler (s.cfg.statusEnc.code st)).setMode m) := h
  refine ⟨_, hstep, hwait, hsent.finish 0xFF#8, State.finish_err _ _, fun hno => ?_⟩
  rw [State.leaveContext_mode, State.finish_mode]
  exact if_neg (by simp [hrs, hno])

/-- One event for each byte left, and one more to end the transfer. -/
theorem Transmitting.run_acknowledged (hc : c.Wf) :
    ∀ (rest sent : List Byte) (sts : List Status) (tr : List PeriphWrite) (s : State),
      Transmitting c rs sent rest res tr s → (sent ++ rest).length ≤ c.txMaxLen → (∀ st ∈ sts, SendsNext st) →
      sts.length = rest.length + 1 → s.Waits (sts.map (eventOf c · 0#8) ++ q) →
      ∃ t, core.run (rest.length + 1) s = .next t ∧ t.Waits q ∧
        Transmitting c rs (sent ++ rest) [] res
          (tr ++ rest.flatMap transmitWrites ++ [.cr (if rs then cwStart else cwStop)]) t ∧
        t.err = 0xFF#8 ∧ (rs = false → t.mode = .ready)
  | [], sent, sts, tr, s, h, _, hsts, hlen, hw => by
    obtain ⟨st, rfl⟩ := List.length_eq_one_iff.mp hlen
    obtain ⟨t, hstep, hwt, ht, hend⟩ := h.step_finish hc (hsts st (by simp)) hw
    exact ⟨t, run_succ_of_step (M := core) hstep 0, hwt, by simpa using ht, hend⟩
  | b :: rest, sent, sts, tr, s, h, hfit, hsts, hlen, hw => by
    obtain ⟨st, sts, rfl⟩ := List.exists_cons_of_length_eq_add_one hlen
    obtain ⟨hst, hsts⟩ := List.forall_mem_cons.mp hsts
    obtain ⟨u, hstep, hwu, hu⟩ := h.step_stage hc hfit hst hw
    obtain ⟨t, hrun, hwt, ht, hend⟩ :=
      Transmitting.run_acknowledged hc rest _ sts _ u hu (by simpa using hfit) hsts (by simpa using hlen) hwu
    exact ⟨t, (run_succ_of_step (M := core) hstep _).trans hrun, hwt, by simpa using ht, hend⟩

end

/-- The statuses of a write of `n + 1` bytes that every slave acknowledges, but for a repeated start at its end
(spec/43_peripheral_contract.md R130). -/
def writeStatuses (n : Nat) : List Status := .start :: .slawAck :: List.replicate n .txdAck

theorem sendsNext_of_mem_writeStatuses {n : Nat} {st : Status} (h : st ∈ writeStatuses n) : SendsNext st := by
  simp only [writeStatuses, List.mem_cons, List.mem_replicate] at h
  exact h.imp_right (Or.imp_right And.right)

/-- Settles O45: TRANSMIT, then one event per byte and one to end the transfer, then with `RS = 1` S_RSTART. -/
theorem acknowledgedWriteSendsEveryByte : Obligations.AcknowledgedWriteSendsEveryByte := by
  intro s rs data hs hctx hinit hm hne hlen hin
  have ⟨hc, _⟩ := hs
  obtain ⟨s₁, hs₁, hw₁, h₁⟩ := step_transmit hs hinit hm hlen ⟨hctx, hin⟩
  have hw₁' : s₁.Waits ((writeStatuses (data.length - 1)).map (eventOf s.cfg · 0#8) ++
      if rs then [eventOf s.cfg .rstart 0#8] else []) := by
    simpa [writeStatuses] using hw₁
  obtain ⟨s₂, hrun₂, hw₂, h₂, herr₂, hmode₂⟩ := Transmitting.run_acknowledged hc data [] _ _ s₁ h₁ hlen
    (fun _ => sendsNext_of_mem_writeStatuses) (by simp [writeStatuses]; omega) hw₁'
  have hrun : ∀ j, core.run (data.length + (j + 2)) s = core.run j s₂ := fun j => by
    rw [show data.length + (j + 2) = data.length + 1 + j + 1 by omega, run_succ_of_step (M := core) hs₁,
      run_add_of_next (M := core) j _ hrun₂]
  obtain ⟨hcfg₂, -, hlen₂, hidx₂, -, hres₂, htr₂⟩ := h₂
  simp only [List.nil_append, List.append_nil] at hlen₂ hidx₂
  have hend : s₂.txidx = s₂.txlen := BitVec.eq_of_toNat_eq (hidx₂.trans hlen₂.symm)
  cases rs with
  | false => exact ⟨s₂, hrun 0, hw₂.2, hmode₂ rfl, herr₂, hend, hlen₂, hres₂, htr₂⟩
  | true =>
    rw [← hcfg₂] at hw₂
    obtain ⟨hs₃, hw₃⟩ := step_eventOf (st := .rstart) (by rwa [hcfg₂]) hw₂ rfl
    exact ⟨_, (hrun 1).trans (run_succ_of_step (M := core) hs₃ 0), hw₃.2, rfl, herr₂, hend, hlen₂, hres₂, htr₂⟩

end Sys2Proof.Machine
end

section
/-! PROOFS of the statements about the exceptions (spec/60_exceptions.md): the model's one fault, EVF and the interrupt
source after a transaction, and the two rejections. -/

namespace Sys2Proof.Machine

open Sys2Proof.Certificates

/-! ### RxOverrun (spec/60_exceptions.md R138) -/

/-- The events that store a received byte. -/
abbrev Receives (i : Instr) (sr dr : Byte) : Prop := i = .evtRxdAck sr dr ∨ i = .evtRxdNack sr dr

/-- A receive status comes on the event port. -/
theorem evt_of_decode_receives {c : Config} {p : Packet} {i : Instr} {sr dr : Byte} (hd : decode c p = .instr i)
    (hi : Receives i sr dr) : ∃ x y, p = .evt x y := by
  have hs := decode_source c p i hd
  cases p with
  | evt x y => exact ⟨x, y, rfl⟩
  | cmd f => rcases hi with rfl | rfl <;> exact hs.elim
  | prim b w => rcases hi with rfl | rfl <;> exact hs.elim
  | reset => rcases hi with rfl | rfl <;> cases hs

/-- Under the invariant every staged byte is in range, so an instruction faults at a receive store only. -/
theorem exec_fault_of_inv {i : Instr} {s : State} {f : Fault} (hs : s.Inv) (hx : exec i s = .fault f) :
    s.cfg.rxMaxLen ≤ s.rxidx.toNat ∧ f = .rxOverrun s.rxidx.toNat ∧ ∃ sr dr, Receives i sr dr := by
  obtain ⟨⟨⟨hcap, -⟩, -⟩, -, -, -, -, htxlen, -⟩ := hs
  rcases exec_fault i s f hx with hrx | ⟨hge, hlt⟩ | hzero
  · exact hrx
  · omega
  · omega

/-- A step that faults has taken a packet, whose instruction faults. -/
theorem step_fault_taken {s : State} {f : Fault} (h : step s = .fault f) :
    ∃ p q i, s.inputs = p :: q ∧ s.Takes p ∧ decode s.cfg p = .instr i ∧ exec i (s.take p q) = .fault f := by
  rcases step_cases s with ⟨-, hs⟩ | ⟨_, _, _, -, -, hs⟩ | ⟨_, _, _, -, -, -, hs⟩ | ⟨_, _, _, _, -, -, -, -, hs⟩ |
      ⟨p, q, i, hin, hb, hd, -, -⟩
  · cases hs.symm.trans h
  · cases hs.symm.trans h
  · cases hs.symm.trans h
  · cases hs.symm.trans h
  · exact ⟨p, q, i, hin, (s.bars_eq_none_iff p).mp hb, hd, step_fault hin hd h⟩

/-- Between transactions a receive status with `RXIDX` out of range makes the step a fault. -/
theorem step_receive_fault {s : State} {p : Packet} {q : List Packet} {i : Instr} {sr dr : Byte}
    (hfull : s.cfg.rxMaxLen ≤ s.rxidx.toNat) (hc : s.context = none) (hin : s.inputs = p :: q)
    (hd : decode s.cfg p = .instr i) (hi : Receives i sr dr) : step s = .fault (.rxOverrun s.rxidx.toNat) := by
  obtain ⟨x, y, rfl⟩ := evt_of_decode_receives hd hi
  rw [step_of_launches hin hc hd (s.launches_of_decode s.cfg _ i hd nofun nofun), endTransaction_eq_fault]
  obtain ⟨hack, hnack⟩ := exec_receive_fault (s := s.take (.evt x y) q) hfull sr dr
  rcases hi with rfl | rfl
  · exact hack
  · exact hnack

/-- Settles O28: a step that faults ran a receive event with `RXIDX` out of range, and conversely. -/
theorem onlyReceiveStoresFault : Obligations.OnlyReceiveStoresFault := by
  refine fun s hs => ⟨⟨?faults, ?overruns⟩, ?onlyOverrun⟩
  case faults =>
    rintro ⟨f, h⟩
    obtain ⟨p, q, i, hin, htakes, hd, hx⟩ := step_fault_taken h
    obtain ⟨hfull, -, sr, dr, hi⟩ := exec_fault_of_inv (s := s.take p q) hs hx
    obtain ⟨x, y, rfl⟩ := evt_of_decode_receives hd hi
    refine ⟨hfull, htakes, _, q, sr, dr, hin, ?_⟩
    rcases hi with rfl | rfl
    · exact .inl hd
    · exact .inr hd
  case overruns =>
    rintro ⟨hfull, hc, p, q, sr, dr, hin, hd | hd⟩
    · exact ⟨_, step_receive_fault hfull hc hin hd (.inl rfl)⟩
    · exact ⟨_, step_receive_fault hfull hc hin hd (.inr rfl)⟩
  case onlyOverrun =>
    intro f h
    obtain ⟨p, q, i, -, -, -, hx⟩ := step_fault_taken h
    obtain ⟨-, hover, -⟩ := exec_fault_of_inv (s := s.take p q) hs hx
    exact hover

/-! ### EVF after an event (spec/60_exceptions.md R144) -/

/-- The events whose rule issues no primitive (spec/42_event_fsm.md R111, R113, R114). -/
abbrev IssuesNothing (i : Instr) : Prop :=
  (∃ sr, i = .evtRstart sr) ∨ (∃ sr, i = .evtNoinfo sr) ∨ ∃ sr, i = .evtUnlisted sr

/-- A primitive ends with a write of CR, which clears EVF and lengthens the trace (spec/10_state.md R33). -/
theorem State.writeCr_clears_evf {s u : State} {w : ControlWord} (hw : w.evack = true) {ws : List PeriphWrite}
    (hu : u.trace = s.trace ++ ws) : (u.writeCr w).evf = false ∧ (u.writeCr w).trace ≠ s.trace := by
  simp [State.writeCr_of_evack u hw, hu]

/-- A rule that issues no primitive leaves EVF as the delivery set it, and the trace as it was. -/
theorem exec_issuesNothing {i : Instr} {s t : State} (hi : IssuesNothing i) (hx : exec i s = .next t) :
    t.evf = true ∧ t.trace = s.trace := by
  rcases hi with ⟨sr, rfl⟩ | ⟨sr, rfl⟩ | ⟨sr, rfl⟩
  · cases (rstartEffect s sr).symm.trans hx
    exact ⟨rfl, rfl⟩
  · cases (noActionEventEffects s sr).1.symm.trans hx
    exact ⟨rfl, rfl⟩
  · cases (noActionEventEffects s sr).2.symm.trans hx
    exact ⟨rfl, rfl⟩

/-- Every other event ends with a primitive. -/
theorem ExecNext.event_clears_evf {i : Instr} {s t : State} (h : ExecNext i s t) (he : IsEvent i)
    (hi : ¬ IssuesNothing i) : t.evf = false ∧ t.trace ≠ s.trace := by
  cases h
  case rstart | noinfo | unlisted => exact absurd (by simp [IssuesNothing]) hi
  case txStep sr m _ _ _ =>
    exact State.writeCr_clears_evf (u := ((s.enterHandler sr).setMode m).writeDr _) (w := cwXmit) rfl rfl
  case txStart | txStop | slarAck | slarNack | rxAck | rxNack | rxStart | rxStop | failStart | failStop | buserr =>
    exact State.writeCr_clears_evf rfl (List.append_nil _).symm
  case answer hc => rcases hc with ⟨rfl, -⟩ | ⟨rfl, -⟩ | ⟨rfl, -⟩ | ⟨k, rfl, -⟩ <;> exact he.elim
  all_goals exact he.elim

/-- Settles O36: whether the rule issues a primitive decides both sides of each equivalence. -/
theorem eventFlagAfterEvents : Obligations.EventFlagAfterEvents := by
  intro i s t he hx
  by_cases hi : IssuesNothing i
  · obtain ⟨hevf, htr⟩ := exec_issuesNothing hi hx
    exact ⟨iff_of_true hevf htr, iff_of_true hevf hi⟩
  · obtain ⟨hevf, htr⟩ := (exec_next i s t hx).event_clears_evf he hi
    have hclear : t.evf ≠ true := ne_true_of_eq_false hevf
    exact ⟨iff_of_false hclear htr, iff_of_false hclear hi⟩

/-! ### The interrupt source (spec/60_exceptions.md R140) -/

/-- Every instruction but RESET leaves CR or writes a control word with `ien = 1` and `pen = 1`. -/
theorem ExecNext.keeps_enabled {i : Instr} {s t : State} (h : ExecNext i s t) (hr : i ≠ .reset)
    (hs : s.enabled = true) : t.enabled = true := by
  cases h
  case reset => exact absurd rfl hr
  case answer | txLong | txBusy | rxLong | rxBusy | rxNoTx | rstart | noinfo | unlisted => exact hs
  all_goals rfl

/-- Settles O37: a step that takes no reset runs an instruction other than RESET, and INIT writes CR. -/
theorem interruptStaysEnabled : Obligations.InterruptStaysEnabled := by
  refine ⟨fun s t hs hhead h => ?_, fun s => ⟨_, exec_of_execNext _ _ _ (.init s), rfl⟩⟩
  rcases step_next s t h with ⟨-, rfl⟩ | ⟨p, q, i, u, hin, -, hd, -, hx, rfl⟩
  · exact hs
  · have hr : i ≠ .reset := by
      rintro rfl
      obtain rfl := (decode_reset_iff _ p).mp hd
      simp [hin] at hhead
    exact (exec_next i (s.take p q) u hx).keeps_enabled hr hs

/-! ### The rejections (spec/60_exceptions.md R132, R133) -/

/-- Settles O13: the first test of each command, by its clause of `ExecNext`. -/
theorem tooLongRejections : Obligations.TooLongRejections := fun s =>
  ⟨fun rs data hlong => exec_of_execNext _ _ _ (.txLong s rs data hlong),
    fun rs addr n hlong => exec_of_execNext _ _ _ (.rxLong s rs addr n hlong)⟩

/-- Settles O14: the second test of TRANSMIT and READ; the other commands answer as in any mode. -/
theorem notReadyRejections : Obligations.NotReadyRejections := by
  intro s hbusy
  have hready : s.ready = false := s.not_ready_iff.mpr hbusy
  obtain ⟨-, hisready⟩ := isreadyEffect.2 s
  obtain ⟨hgeterr, hgetrxlen⟩ := readBackEffects.2 s
  refine ⟨fun rs data hfit => ?transmit, fun rs addr n hfit => ?read, ⟨_, exec_of_execNext _ _ _ (.init s), rfl⟩,
    ⟨_, hisready hbusy, rfl⟩, ⟨_, hgeterr, rfl⟩, ⟨_, hgetrxlen, rfl⟩,
    fun k hk => ⟨_, (getrxbyteEffect.2 s k).1 hk, rfl⟩⟩
  case transmit => exact exec_of_execNext _ _ _ (.txBusy s rs data hfit hready)
  case read => exact exec_of_execNext _ _ _ (.rxBusy s rs addr n hfit hready)

end Sys2Proof.Machine
end

section
/-! PROOFS of the statements about reset, hangs and hazards (spec/70_reset_and_hazards.md): the reset transaction, what
leaves a transient mode, and how a resumed data byte can overrun a full `RXBUF`. -/

namespace Sys2Proof.Machine

open Sys2Proof.Certificates

/-! ### The reset transaction (spec/70_reset_and_hazards.md R153, R155) -/

/-- Settles O8: RESET's next state is the state after reset but for the free values and what a reset leaves. -/
theorem resetTransactionEffect : Obligations.ResetTransactionEffect := fun s =>
  ⟨_, exec_of_execNext _ _ _ (.reset s), rfl, rfl, rfl, rfl, rfl, rfl, rfl, fun _ => rfl, fun _ => rfl, rfl, rfl, rfl⟩

/-- A step that takes a packet starts the run, and no step ends that (log 25). -/
theorem step_started {s t : State} (hs : s.inputs ≠ [] ∨ s.started = true) (h : step s = .next t) :
    t.started = true := by
  rcases step_next s t h with ⟨hnil, rfl⟩ | ⟨p, q, i, u, -, -, -, -, hx, rfl⟩
  · exact hs.resolve_left fun hne => hne hnil
  · exact (exec_next i (s.take p q) u hx).started_eq

/-- From `s` to `t` the packets taken are the oldest of `s`, and a reset is the first of them or none; none where the
run had started. -/
def TakesResetFirst (s t : State) : Prop :=
  ∃ taken, s.inputs = taken ++ t.inputs ∧ Packet.reset ∉ taken.tail ∧ (s.started = true → Packet.reset ∉ taken)

theorem TakesResetFirst.refl (s : State) : TakesResetFirst s s := ⟨[], rfl, nofun, fun _ => nofun⟩

/-- A step before a run: the packet it takes starts the run, so none of those after it is a reset. -/
theorem TakesResetFirst.head {s u t : State} (h : step s = .next u) (hut : TakesResetFirst u t) :
    TakesResetFirst s t := by
  obtain ⟨taken, hu, htail, hstarted⟩ := hut
  rcases step_next s u h with ⟨-, rfl⟩ | ⟨p, q, i, v, hin, -, hd, ⟨hreset, -, -⟩, hx, rfl⟩
  · exact ⟨taken, hu, htail, hstarted⟩
  · have hq : q = taken ++ t.inputs := (exec_next i _ v hx).inputs_eq.symm.trans hu
    have hrest : Packet.reset ∉ taken := hstarted (step_started (.inl (by simp [hin])) h)
    refine ⟨p :: taken, by rw [hin, hq, List.cons_append], hrest, fun hs => ?_⟩
    refine List.not_mem_cons_of_ne_of_not_mem ?_ hrest
    rintro rfl
    cases hd
    simp [hreset rfl] at hs

/-- Settles O52: the step on a reset, what starts a run, and the induction over a run. -/
theorem resetOnlyStartsARun : Obligations.ResetOnlyStartsARun := by
  refine ⟨fun s q hc hin => ⟨fun hs => ?refused, fun hs => ?completed⟩, fun _ _ => step_started, fun _ => rfl,
    run_next_induction (M := core) TakesResetFirst .refl fun _ _ _ => TakesResetFirst.head⟩
  case refused => exact step_of_launchBars hin hc rfl (State.launchBars_reset hs)
  case completed =>
    exact ⟨_, step_of_launches hin hc rfl (State.launches_reset hs), rfl,
      ⟨rfl, rfl, rfl, rfl, rfl, rfl, rfl, rfl, rfl⟩, rfl⟩

/-! ### The hang (spec/70_reset_and_hazards.md R163) -/

/-- In a transient mode TRANSMIT and READ are rejected (spec/60_exceptions.md R133), and the other commands and the
primitives never write `MODE`. -/
theorem ExecNext.leaves_transient {i : Instr} {s t : State} (h : ExecNext i s t) (hs : Transient s)
    (hne : t.mode ≠ s.mode) : IsEvent i ∨ i = .init ∨ i = .reset := by
  obtain ⟨hready, hheld⟩ := hs
  cases h
  case init => exact .inr (.inl rfl)
  case reset => exact .inr (.inr rfl)
  case txReady hm | rxReady hm _ => exact absurd hm hready
  case txHeld hm _ | rxHeld hm _ => exact absurd hm hheld
  case txStep hi | txStart hi => rcases hi with ⟨rfl, -⟩ | ⟨rfl, -⟩ | ⟨rfl, -⟩ <;> exact .inl trivial
  case txStop hi _ _ => rcases hi with rfl | rfl | rfl <;> exact .inl trivial
  case failStart hi _ | failStop hi _ => rcases hi with rfl | rfl | rfl | rfl <;> exact .inl trivial
  case slarAck | slarNack | rxAck | rxNack | rxStart | rxStop | rstart | buserr | noinfo | unlisted =>
    exact .inl trivial
  all_goals exact absurd rfl hne

/-- Settles O38: the launch premise shuts INIT out of a transient mode (R169), and a reset out of a run (R155). -/
theorem transientModeOnlyLeftByEvents : Obligations.TransientModeOnlyLeftByEvents := by
  refine ⟨fun s t hs h hne => ?step, fun i s t hs hx hne => (exec_next i s t hx).leaves_transient hs hne⟩
  rcases step_next s t h with ⟨-, rfl⟩ | ⟨p, q, i, u, hin, -, hd, ⟨hreset, hinit, -⟩, hx, rfl⟩
  · exact absurd rfl hne
  · refine ⟨p, q, i, hin, hd, ?_⟩
    rcases (exec_next i (s.take p q) u hx).leaves_transient hs hne with he | hi | hr
    · exact .inl he
    · exact absurd (hinit hi) hs.1
    · exact .inr ⟨hr, hreset hr⟩

/-! ### Room for a read (spec/70_reset_and_hazards.md R166, R168) -/

section
variable {b : Bus} {s t : State} {i : Instr}

/-- The bound with a weaker promise where S_START would send a read address. -/
theorem RxBound.mono {P Q : Prop} (h : RxBound b s P) (hPQ : P → Q) : RxBound b s Q := by
  obtain ⟨hinv, hst, hheld, hbusy⟩ := h
  refine ⟨hinv, hst, hheld, ?_⟩
  split at hbusy
  case h_2 => exact fun hfree hpend hbit => hPQ (hbusy hfree hpend hbit)
  all_goals exact hbusy

/-- Where a lost arbitration with a read address next is not R168's, `RXBUF` has room. -/
theorem RxBound.room_of_not_resumes {P : Prop} {sr : Byte} (hs : RxBound b s P)
    (hno : ¬ ResumesAsReadWhenFull s (.evtArbLost sr)) (hrs : s.rs = true) (hr : ReadNext s) : RxHasRoom s := by
  have ⟨⟨_, _, _, _, _, _, _, _, hrxidx⟩, _⟩ := hs
  obtain ⟨hpend, hbit⟩ := hr
  exact lt_of_le_of_ne hrxidx fun hfull => hno ⟨⟨sr, rfl⟩, hrs, hpend, hbit, hfull⟩

/-- After R168's loss of arbitration the next start would begin a read, and `RXBUF` is as full as before. -/
theorem not_rxRoom_of_resumes (hr : ResumesAsReadWhenFull s i) (hx : exec i s = .next t) :
    ¬ RxRoom (b.after i s t) t := by
  obtain ⟨⟨sr, rfl⟩, hrs, hpend, hbit, hfull⟩ := hr
  cases (exec_of_execNext _ _ _ (.failStart _ s sr (by simp) hrs)).symm.trans hx
  rw [Bus.after_of_start rfl]
  intro hroom
  have hlt : RxHasRoom s := hroom.of_start rfl rfl ⟨hpend, hbit⟩
  exact hlt.ne hfull

end

/-- Settles O50: the case of `ExecNext.keeps_rxBound` with room for every byte, which asks for room where arbitration is
lost before a read address, and the converse from R168's next state. -/
theorem onlyTheResumedReadLosesRoom : Obligations.OnlyTheResumedReadLosesRoom := by
  intro b s p q i hs hin hd hk
  simp only [frameContractKept, Bool.and_eq_true] at hk
  obtain ⟨⟨hl, ha⟩, hframe⟩ := hk
  have hs' : RxRoom b (s.take p q) := hs
  refine ⟨fun f h => hs'.exec_ne_fault ha f (step_fault hin hd h), fun t h => ?_⟩
  obtain ⟨u, hx, rfl⟩ := step_next_of_inputs hin hd h
  refine ⟨fun hroom hr => not_rxRoom_of_resumes (s := s.take p q) hr hx hroom, fun hno => ?_⟩
  have hkept : RxBound (b.after i (s.take p q) u) u (True → RxHasRoom u) :=
    (exec_next i _ u hx).keeps_rxBound (G := fun _ => True) (hs'.mono fun hroom _ => hroom)
      (presented_of_launchPremise hl) ha hframe (fun _ _ _ => trivial) (by
        rintro sr rfl hrs hr -
        exact hs'.room_of_not_resumes hno hrs hr)
  exact hkept.mono fun hroom => hroom trivial

/-- Settles O51: O50 at every step. -/
theorem noRunWithoutTheResumedReadFaults : Obligations.NoRunWithoutTheResumedReadFaults := by
  refine run_ne_fault_of_runKeeps fun b s p q i hs hin hd hP => ?_
  obtain ⟨hk, hno⟩ := hP
  obtain ⟨hfault, hroom⟩ := onlyTheResumedReadLosesRoom b s p q i hs hin hd hk
  exact ⟨hfault, fun t h => (hroom t h).mpr hno⟩

/-! ### The read that is resumed with `RXBUF` full (spec/70_reset_and_hazards.md R168) -/

theorem run_succ_of_fault {M : Host.Core} {s : M.State} {f : M.Fault} (h : M.step s = .fault f) (k : Nat) :
    M.run (k + 1) s = .fault f := by
  rw [Host.Core.run, h]

theorem decode_eventOf {c : Config} (hc : c.Wf) (st : Status) (dr : Byte) :
    decode c (eventOf c st dr) = .instr (eventInstr (some st) (c.statusEnc.code st) dr) :=
  decode_evt_of_carries hc st (carries_code hc st) dr

/-- An event the peripheral may deliver, with the interrupt on, keeps the premises but the one on resumed bytes. -/
theorem frameContractKept_of_isEvent {b : Bus} {s : State} {i : Instr} (he : IsEvent i) (hen : s.enabled = true)
    (ha : b.allows i = true) : frameContractKept b s i = true := by
  have hframe : noReadFrameInTransmit s i = true := by
    cases i
    case transmit => exact he.elim
    all_goals rfl
  have hl : launchPremise s i = true := by
    cases i
    case init | isready | transmit | read | geterr | getrxlen | getrxbyte | cmdReserved => exact he.elim
    case sendStart | sendStop | sendTransmit | sendAck | sendNack | initCw | reset => exact he.elim
    all_goals exact hen
  simp [frameContractKept, hl, ha, hframe]

/-- The block is between transactions with the parameters `c`, the interrupt on and `RXBUF` full, and `q` is to be
taken. -/
def FullWaits (c : Config) (q : List Packet) (s : State) : Prop :=
  s.cfg = c ∧ s.Inv ∧ s.Waits q ∧ s.enabled = true ∧ s.rxidx.toNat = c.rxMaxLen

section
variable {c : Config} {q : List Packet} {s : State}

/-- An event that leaves `RXIDX` leads from one such state to the next. -/
theorem FullWaits.step_event {st : Status} {dr : Byte} {t : State} (h : FullWaits c (eventOf c st dr :: q) s)
    (hx : ExecNext (eventInstr (some st) (c.statusEnc.code st) dr) (s.take (eventOf c st dr) q) t)
    (hrx : t.rxidx = s.rxidx) : step s = .next t.leaveContext ∧ FullWaits c q t.leaveContext := by
  obtain ⟨rfl, hinv, hw, hen, hfull⟩ := h
  obtain ⟨hstep, hwait⟩ := step_eventOf hinv.1 hw (exec_of_execNext _ _ _ hx)
  have hr : eventInstr (some st) (s.cfg.statusEnc.code st) dr ≠ .reset := by cases st <;> exact nofun
  refine ⟨hstep, hx.cfg_eq, hx.keeps_inv hinv, hwait, hx.keeps_enabled hr hen, ?_⟩
  rw [State.leaveContext_rxidx, hrx, hfull]

/-- The event keeps the premises but the one on resumed bytes where the peripheral may deliver it. -/
theorem FullWaits.keeps_frameContract {b : Bus} {st : Status} {dr : Byte} (h : FullWaits c (eventOf c st dr :: q) s)
    (ha : b.allows (eventInstr (some st) (c.statusEnc.code st) dr) = true) :
    frameContractKept b s (eventInstr (some st) (c.statusEnc.code st) dr) = true := by
  obtain ⟨-, -, -, hen, -⟩ := h
  exact frameContractKept_of_isEvent (by cases st <;> trivial) hen ha

/-- A premise on a run of one step more is a premise on the event, and on the run after it. -/
theorem FullWaits.runKeeps_succ_iff {P : Bus → State → Instr → Prop} {k : Nat} {b : Bus} {t : State} {st : Status}
    {dr : Byte} (h : FullWaits c (eventOf c st dr :: q) s) (hs : step s = .next t) :
    RunKeeps P (k + 1) b s ↔ P b s (eventInstr (some st) (c.statusEnc.code st) dr) ∧
      RunKeeps P k (b.after (eventInstr (some st) (c.statusEnc.code st) dr) s t) t := by
  obtain ⟨rfl, ⟨hc, _⟩, ⟨_, hin⟩, _⟩ := h
  simp [RunKeeps, hin, decode_eventOf hc, hs]

theorem FullWaits.runKeeps_one_iff {P : Bus → State → Instr → Prop} {b : Bus} {st : Status} {dr : Byte}
    (h : FullWaits c (eventOf c st dr :: q) s) :
    RunKeeps P 1 b s ↔ P b s (eventInstr (some st) (c.statusEnc.code st) dr) := by
  obtain ⟨rfl, ⟨hc, _⟩, ⟨_, hin⟩, _⟩ := h
  simp [RunKeeps, hin, decode_eventOf hc]

/-- A lost arbitration with `RS = 1` asks for a start on a bus the block does not own, and rewinds nothing. -/
theorem FullWaits.step_arbLost (h : FullWaits c (eventOf c .arbLost 0#8 :: q) s) (hrs : s.rs = true)
    (hr : ReadNext s) :
    ∃ t, step s = .next t ∧ FullWaits c q t ∧ ReadNext t ∧ t.txidx = s.txidx ∧
      ∀ b : Bus, b.after (.evtArbLost (c.statusEnc.code .arbLost)) s t =
        { b with owned := false, busy := .start, staged := none } := by
  obtain ⟨hstep, hfull⟩ := h.step_event (.failStart _ _ (c.statusEnc.code .arbLost) (by simp [eventInstr]) hrs) rfl
  exact ⟨_, hstep, hfull, hr, rfl, fun b => Bus.after_of_start rfl⟩

/-- S_START sends the next byte of the frame as an address byte (R123). -/
theorem FullWaits.step_start (h : FullWaits c (eventOf c .start 0#8 :: q) s) (hr : ReadNext s) :
    ∃ t, step s = .next t ∧ FullWaits c q t ∧
      ∀ b : Bus, b.after (.evtStart (c.statusEnc.code .start)) s t =
        ⟨true, true, .byte (s.txbuf.read s.txidx.toNat), none⟩ := by
  have ⟨_, ⟨_, _, _, _, _, htxlen, _⟩, _⟩ := h
  have hpend : s.txidx.toNat < s.txlen.toNat := s.txPending_iff.mp hr.1
  have hin : s.txidx.toNat < s.cfg.txMaxLen := lt_of_lt_of_le hpend htxlen
  have hx := ExecNext.txStep (.evtStart (c.statusEnc.code .start)) (s.take (eventOf c .start 0#8) q) _ s.mode
    (.inl ⟨rfl, rfl⟩) hpend hin
  obtain ⟨hstep, hfull⟩ := h.step_event (st := .start) hx (by simp)
  exact ⟨_, hstep, hfull, fun b => Bus.after_of_transmit rfl⟩

/-- With `RXBUF` full `RXIDX` has reached `RXLEN`, so S_SLAR_ACK asks for one byte, the last
(spec/42_event_fsm.md R99). -/
theorem FullWaits.step_slarAck (h : FullWaits c (eventOf c .slarAck 0#8 :: q) s) :
    ∃ t, step s = .next t ∧ FullWaits c q t ∧
      ∀ b : Bus, b.staged = none → b.after (.evtSlarAck (c.statusEnc.code .slarAck)) s t =
        { b with atAddress := false, busy := .receive false, staged := none } := by
  have ⟨hcfg, ⟨_, _, _, _, _, _, _, hrxlen, _⟩, _, _, hrxidx⟩ := h
  have hlast : s.rxlen.toNat ≤ s.rxidx.toNat + 1 := by
    rw [hrxidx, ← hcfg]
    exact Nat.le_succ_of_le hrxlen
  obtain ⟨hstep, hfull⟩ := h.step_event (.slarNack _ (c.statusEnc.code .slarAck) hlast) rfl
  exact ⟨_, hstep, hfull, fun b hst => Bus.after_of_nack rfl hst⟩

/-- The slave's byte has no room (spec/60_exceptions.md R138). -/
theorem FullWaits.step_rxdNack {dr : Byte} (h : FullWaits c (eventOf c .rxdNack dr :: q) s) :
    step s = .fault (.rxOverrun c.rxMaxLen) := by
  obtain ⟨rfl, ⟨hc, _⟩, ⟨hctx, hin⟩, _, hrxidx⟩ := h
  rw [step_receive_fault hrxidx.ge hctx hin (decode_eventOf hc .rxdNack dr) (.inr rfl), hrxidx]

end

/-- Settles O49: the four events in turn, with what the peripheral sees of each. The premise on reads is broken at
S_START, where `TXIDX` has left the frame's first byte. -/
theorem resumedReadOverrunsAFullBuffer : Obligations.ResumedReadOverrunsAFullBuffer := by
  intro b s x dr hroom hctx hen hbusy hrs hpend hbit hrxidx hin
  have ⟨hinv, _⟩ := hroom
  have hread : ReadNext s := ⟨s.txPending_iff.mpr hpend, hbit⟩
  have h₀ : FullWaits s.cfg _ s := ⟨rfl, hinv, ⟨hctx, hin⟩, hen, hrxidx⟩
  obtain ⟨s₁, hs₁, h₁, hread₁, hidx₁, hbus₁⟩ := h₀.step_arbLost hrs hread
  obtain ⟨s₂, hs₂, h₂, hbus₂⟩ := h₁.step_start hread₁
  obtain ⟨s₃, hs₃, h₃, hbus₃⟩ := h₂.step_slarAck
  refine ⟨?kept, fun hpos hk => ?broken, ?overrun⟩
  case kept =>
    have hbit₁ : (s₁.txbuf.read s₁.txidx.toNat).getLsbD 0 = true := hread₁.2
    rw [h₀.runKeeps_succ_iff hs₁, h₁.runKeeps_succ_iff hs₂, h₂.runKeeps_succ_iff hs₃, h₃.runKeeps_one_iff]
    simp only [eventInstr, hbus₁, hbus₂, hbus₃]
    refine ⟨h₀.keeps_frameContract ?_, h₁.keeps_frameContract rfl,
      h₂.keeps_frameContract ?_, h₃.keeps_frameContract rfl⟩
    · simp [eventInstr, Bus.allows, hbusy]
    · simp [eventInstr, Bus.allows, hbit₁]
  case broken =>
    rw [h₀.runKeeps_succ_iff hs₁, h₁.runKeeps_one_iff] at hk
    obtain ⟨-, hk₁⟩ := hk
    simp only [contractKept, readsOnlyWithRead, Bool.and_eq_true] at hk₁
    obtain ⟨-, -, hresumed⟩ := hk₁
    have hzero : s₁.txidx = 0#8 := txidx_eq_zero_of_readNext hresumed hread₁
    simp [← hidx₁, hzero] at hpos
  case overrun =>
    calc core.run 4 s
      _ = core.run 1 s₃ := by
        rw [run_succ_of_step (M := core) hs₁, run_succ_of_step (M := core) hs₂, run_succ_of_step (M := core) hs₃]
      _ = .fault (.rxOverrun s.cfg.rxMaxLen) := run_succ_of_fault (M := core) h₃.step_rxdNack 0

end Sys2Proof.Machine
end
